-- ==== Sys2Proof/Word.lean ====
section
/-! DEFINITION. The word types of the block: every register is a byte and the two timer
counters are 16 bits wide (00_scope R11, 10_state R21). -/

namespace Sys2Proof

/-- One register of a bank, one byte of PRAM, one byte on either serial line (R7, R11). -/
abbrev Byte := BitVec 8

/-- A timer counter or the timer 1 latch (R11, R25). -/
abbrev Count := BitVec 16

end Sys2Proof
end

