-- ==== Sys2Proof/Config.lean ====
section
/-! DEFINITION. What is fixed for the machine and is not state (00_scope R6, 10_state R43): the
parameters to which the spec gives a value, the record of those it leaves OPEN, and the answers of
the ADB collaborator, which the block cannot predict (42_adb R190). -/

namespace Sys2Proof

/-! ## Parameters with a value (R6) -/

/-- `P_VBL`: 16 630 microseconds, in nanoseconds (R212, 90_conflicts C8). -/
def Config.periodVbl : Nat := 16630000

/-- `P_SEC`: one second, in nanoseconds (R212). -/
def Config.periodSec : Nat := 1000000000

/-- `P_ADBPOLL`: 50 Hz, in nanoseconds (R212, decision D28). -/
def Config.periodAdbpoll : Nat := 20000000

/-- Nanoseconds in a second, the divisor of the seconds value (R11, R160). -/
def Config.nsPerSecond : Nat := 1000000000

/-- `BANK_WINDOW`: the raw addresses covered by one pass over the 16 registers of a bank (R6). -/
def Config.bankWindow : Nat := 0x2000

/-- `PRAM_SIZE` (R6, R38). -/
def Config.pramSize : Nat := 256

/-- `VIA1B_vRTCData` (R33, decision D17). -/
def Config.rtcDataMask : Byte := 0x01

/-- `VIA1B_vRTCClk` (R33, decision D17). -/
def Config.rtcClkMask : Byte := 0x02

/-- `VIA1B_vRTCEnb`, active low (R33, decision D17). -/
def Config.rtcEnbMask : Byte := 0x04

/-- `VIA1B_vADBInt` (R33, decision D17). -/
def Config.adbIntMask : Byte := 0x08

/-- `VIA2B_vPower` (R34, decision D18). -/
def Config.powerMask : Byte := 0x04

/-- `ACR_SHIFT_OUT` (R27, decision D16). -/
def Config.acrShiftOut : Byte := 0x10

/-- `ACR_T1_FREERUN` (R27, decision D10). -/
def Config.acrT1Freerun : Byte := 0x40

/-- `IFR_SEC`: bit 0 of VIA1 (R29, decision D11). -/
def Config.ifrSec : BitVec 7 := 0x01

/-- `IFR_VBL`: bit 1 of VIA1 (R29, decision D11). -/
def Config.ifrVbl : BitVec 7 := 0x02

/-- `IFR_T2`: bit 5 of either bank (R29, decision D11). -/
def Config.ifrT2 : BitVec 7 := 0x20

/-- `IFR_T1`: bit 6 of either bank (R29, decision D11). -/
def Config.ifrT1 : BitVec 7 := 0x40

/-- What a PRAM index that the memory does not list reads as. DESIGN CHOICE, unsafe: `PRAM_INIT`
is OPEN (R49); log entry 4. -/
def Config.pramBlank : Byte := 0x00

/-! ## OPEN parameters -/

/-- `LOW_PRAM_ADDR`: which bits of a low-bank command byte select the PRAM byte (R95, 90_conflicts
C5, decision D21). -/
inductive LowPram where
  /-- `(B >> 2) & 0x0F`, the branch the source reaches; the spec's value. -/
  | nibble
  /-- `(B >> 2) & 0x03`, the extraction of the source's unreachable branch (R166). -/
  | twoBits
deriving DecidableEq, Repr

/-- `XPRAM_STRIDE`: how far apart two sectors of an extended command stand (R96, 90_conflicts C6,
decision D22). -/
inductive XpramStride where
  /-- 8, as the source's formula has it; the spec's value. -/
  | eight
  /-- 32, as the source's "32-entry sectors" would have it. -/
  | thirtyTwo
deriving DecidableEq, Repr

/-- The named parameters of the model: the two to which the spec keeps an alternative,
`LOW_PRAM_ADDR` and `XPRAM_STRIDE` (R166, R177; log entry 8), and those R6 leaves OPEN, but for
`PRAM_INIT` and `TICK_OFFSET`, which are arguments of the construction of their own, and the rates
of the counters, since a tick may come at any moment (R216; log entry 14). The model carries them in
`State` and no step changes them, so a statement about every state holds for every value of them
(R43, R52). -/
structure Params where
  /-- `LOW_PRAM_ADDR` (R95, R166). -/
  lowPram : LowPram
  /-- `XPRAM_STRIDE` (R96, R177). -/
  xpramStride : XpramStride
  /-- `VIA1_BASE`: the raw address at which the window of VIA1 stands (R66, decision D3). -/
  via1Base : Nat
  /-- `VIA2_BASE`: the raw address at which the window of VIA2 stands (R66, decision D3). -/
  via2Base : Nat
  /-- `UNUSED_READ` (R112). -/
  unusedRead : Byte
  /-- `IER_READ_BIT7` (R138). -/
  ierReadBit7 : Bool
  /-- `PORTA_RESET[1]` (R51). -/
  portAReset1 : Byte
  /-- `PORTB_RESET[1]` (R51). -/
  portBReset1 : Byte
  /-- `PORTA_RESET[2]` (R51). -/
  portAReset2 : Byte
  /-- `PORTB_RESET[2]` (R51). -/
  portBReset2 : Byte
deriving DecidableEq, Repr

/-- The values R6 recommends. DESIGN CHOICE, unsafe where a claim rests on one of them: the spec
leaves them OPEN; log entry 2. For the two bases R6 recommends nothing and R66 forbids to rely on
those it tells of; the model's are two windows side by side from address 0; log entry 9.
`LOW_PRAM_ADDR` and `XPRAM_STRIDE` have the values of R6; log entry 8. -/
def Params.recommended : Params where
  lowPram := .nibble
  xpramStride := .eight
  via1Base := 0x0000
  via2Base := 0x2000
  unusedRead := 0x00
  ierReadBit7 := true
  portAReset1 := 0x00
  portBReset1 := 0x3C
  portAReset2 := 0x00
  portBReset2 := 0x00

/-! ## The ADB collaborator -/

/-- A call the block makes to the ADB collaborator, with its arguments: the 2-bit state and the
shift register as it stands (R190). -/
inductive AdbCall where
  | send (state : BitVec 2) (byte : Byte)
  | receive (state : BitVec 2) (srOld : Byte)
  | poll (state : BitVec 2) (srOld : Byte)
deriving DecidableEq, Repr

/-- What the collaborator answers (R190). `send` is answered by `ret` alone, `receive` by `ret`
and `byte`, `poll` by `ok` and `byte`; "the byte was left alone" is the answer `byte = srOld`. -/
structure AdbAnswer where
  ret : Int
  ok : Bool
  byte : Byte
deriving DecidableEq, Repr, Inhabited

/-- The answer to call number `n` of the machine's life when the environment has scripted none: a
free value, about which nothing can be proved (R190, 93_implementation_defined section 1 "any
value"). DESIGN CHOICE in form, safe; log entry 5. -/
opaque Config.adbAnswer : Nat → AdbCall → AdbAnswer

end Sys2Proof
end

