-- ==== Sys2Proof/Syntax.lean ====
section
/-! DEFINITION. What the block can be given: one constructor of `Instr` per row of
spec/opcode_table.json (30_encoding R80, R82, R91 to R94, R98, R102), and the shapes in which a
stimulus reaches the decoder. The block executes no program: an "instruction" is a stimulus, or
an RTC command byte decoded inside one (92_eei_decisions D35). -/

namespace Sys2Proof

/-- The two register banks, `b` in the set 1, 2 (R1, R8). -/
inductive BankId where
  | via1
  | via2
deriving DecidableEq, Repr

/-- One constructor per row of the opcode table, in the table's order. The 32 bus operations
(R82), the 19 rows of the RTC command map (R91 to R94), the 8 events (R98). -/
inductive Instr where
  | rdOrb (bank : BankId)
  | wrOrb (bank : BankId) (data : Byte)
  | rdOrah (bank : BankId)
  | wrOrah (bank : BankId) (data : Byte)
  | rdDdrb (bank : BankId)
  | wrDdrb (bank : BankId) (data : Byte)
  | rdDdra (bank : BankId)
  | wrDdra (bank : BankId) (data : Byte)
  | rdT1cl (bank : BankId)
  | wrT1cl (bank : BankId) (data : Byte)
  | rdT1ch (bank : BankId)
  | wrT1ch (bank : BankId) (data : Byte)
  | rdT1ll (bank : BankId)
  | wrT1ll (bank : BankId) (data : Byte)
  | rdT1lh (bank : BankId)
  | wrT1lh (bank : BankId) (data : Byte)
  | rdT2cl (bank : BankId)
  | wrT2cl (bank : BankId) (data : Byte)
  | rdT2ch (bank : BankId)
  | wrT2ch (bank : BankId) (data : Byte)
  | rdSr (bank : BankId)
  | wrSr (bank : BankId) (data : Byte)
  | rdAcr (bank : BankId)
  | wrAcr (bank : BankId) (data : Byte)
  | rdPcr (bank : BankId)
  | wrPcr (bank : BankId) (data : Byte)
  | rdIfr (bank : BankId)
  | wrIfr (bank : BankId) (data : Byte)
  | rdIer (bank : BankId)
  | wrIer (bank : BankId) (data : Byte)
  | rdOra (bank : BankId)
  | wrOra (bank : BankId) (data : Byte)
  /-- Context FIRST, byte 0x81 (R161). -/
  | rtcRdsec0
  /-- Context FIRST, byte 0x85 (R162). -/
  | rtcRdsec1
  /-- Context FIRST, byte 0x89 (R163). -/
  | rtcRdsec2
  /-- Context FIRST, byte 0x8D (R164). -/
  | rtcRdsec3
  /-- Context FIRST, low-bank read, `aa = B[3:2]` (R165). -/
  | rtcRdpram (aa : BitVec 2)
  /-- The duplicated low-bank read test, in its place in the list and never reached (R166). -/
  | rtcRdpramDead (aa : BitVec 2)
  /-- Context FIRST, extended read designator, `sector = B[2:0]` (R167). -/
  | rtcXrdsel (sector : BitVec 3)
  /-- Context FIRST, any other byte with bit 7 set (R168). -/
  | rtcRdnop (byte : Byte)
  /-- Context FIRST, a byte with bit 7 clear, of which `code` is `B[6:0]` (R169). -/
  | rtcWrcmd (code : BitVec 7)
  /-- Context XREAD: `sector = cmd[2:0]`, `addr = B[6:2]` (R170). -/
  | rtcXrd (sector : BitVec 3) (addr : BitVec 5)
  /-- Context WDATA, extended write: `sector = cmd[2:0]` and the byte just completed, an
  addressing byte or a data byte as `RTC.alt` says (R171, R172). -/
  | rtcXwr (sector : BitVec 3) (byte : Byte)
  /-- Context WDATA, low-bank write, `aa = cmd[3:2]` (R173). -/
  | rtcWrpram (aa : BitVec 2) (data : Byte)
  /-- The duplicated low-bank write test, never reached (R166). -/
  | rtcWrpramDead (aa : BitVec 2) (data : Byte)
  /-- Context WDATA, write-protect command, `protect = B[0]` (R174). -/
  | rtcWprot (protect : Bool)
  | rtcWrsec0 (data : Byte)
  | rtcWrsec1 (data : Byte)
  | rtcWrsec2 (data : Byte)
  | rtcWrsec3 (data : Byte)
  /-- Context WDATA, any other pending command (R176). -/
  | rtcWrnop (cmd : Byte) (data : Byte)
  | reset
  /-- `dt` nanoseconds of virtual time (R205). -/
  | advance (dt : Nat)
  | fireVbl
  | fireSec
  | fireAdbpoll
  | tickT1 (bank : BankId)
  | tickT2 (bank : BankId)
  /-- Fan-in line `line` of a bank takes the level `level` (R220). -/
  | extirq (bank : BankId) (line : BitVec 3) (level : Bool)
deriving DecidableEq, Repr

/-- A bus access as the bus offers it: the tuple of R81 with the raw address of R60 and the
access width of R64. The bank was chosen outside the block (R63). -/
structure BusAccess where
  bank : BankId
  /-- `rw`: true for a write (R81). -/
  write : Bool
  /-- The raw address, of which only bits 12..9 take part in the decode (R61, R62). -/
  addr : Nat
  /-- The number of bytes of the access; 1 is the only width with a meaning (R64). -/
  size : Nat
  /-- The byte written; not looked at for a read. -/
  data : Byte
deriving DecidableEq, Repr

/-- An event: the 4-bit code `E` of R98 and every operand an event can have; an event looks at
its own operands only. -/
structure EventCall where
  code : BitVec 4
  dt : Nat
  bank : BankId
  line : BitVec 3
  level : Bool
deriving DecidableEq, Repr

/-- What the environment can offer the block: formats BUS and EVENT of R80. -/
inductive Stimulus where
  | bus (access : BusAccess)
  | event (call : EventCall)
deriving DecidableEq, Repr

/-- What the decoder reads. Format RTC is not a stimulus from outside but the second level of
decode inside `WR.ORB` (R80): the pending `RTC.cmd` and the byte just completed (R90). -/
inductive Encoded where
  | stimulus (st : Stimulus)
  | rtc (cmd : Byte) (byte : Byte)
deriving DecidableEq, Repr

/-- Why the decoder has no instruction for what it was given. -/
inductive Reject where
  /-- A bus access of a width other than one byte (R64). -/
  | wideAccess (size : Nat)
  /-- An event code 8..15, which names no event (R98). -/
  | unassignedEvent (code : BitVec 4)
  /-- A transaction word that no row of R82 matches; the table is total, so it is never raised. -/
  | unassignedBusWord (word : BitVec 14)
deriving DecidableEq, Repr

end Sys2Proof
end

