-- ==== Sys2Proof/Machine/State.lean ====
section
/-! DEFINITION. The state of the block (10_state R20 to R41), what stands beside it so that one
deterministic step can be taken (the stimuli on offer, the answers of the ADB collaborator, the
outputs), the reasons a step can stop, and the state after reset. -/

namespace Sys2Proof.Machine

/-- The stored fields of one bank, under the names of R21. -/
structure Via where
  /-- Port A, current pin values (R23). -/
  a : Byte
  /-- Port B, current pin values (R23). -/
  b : Byte
  /-- Data direction of port A, 1 = output (R24). -/
  dira : Byte
  /-- Data direction of port B, 1 = output (R24). -/
  dirb : Byte
  /-- Timer 1 counter (R25). -/
  t1c : Count
  /-- Timer 1 latch (R25). -/
  t1l : Count
  /-- A one-shot timer 1 has been loaded and has not yet set its flag (R21). -/
  t1armed : Bool
  /-- Timer 2 counter (R25). -/
  t2c : Count
  /-- Timer 2 low-byte latch (R25). -/
  t2ll : Byte
  /-- Timer 2 has been loaded and has not yet set its flag (R21). -/
  t2armed : Bool
  /-- Shift register (R26). -/
  sr : Byte
  /-- Auxiliary control (R27). -/
  acr : Byte
  /-- Peripheral control (R28). -/
  pcr : Byte
  /-- Interrupt flags 6..0; bit 7 is not stored (R29, R32). -/
  ifr : BitVec 7
  /-- Interrupt enables 6..0; bit 7 is not stored (R31). -/
  ier : BitVec 7
deriving DecidableEq, Repr

/-- The RTC sequencer, attached to VIA1 (R36). -/
structure Rtc where
  /-- The pending command; 0 = idle. -/
  cmd : Byte
  /-- The extended addressing byte; 0 = none latched. -/
  alt : Byte
  /-- PRAM stores are suppressed. -/
  wprotect : Bool
  /-- Bits assembled from the host. -/
  dataOut : Byte
  /-- How many bits `dataOut` has, 0..8. -/
  dataOutCount : Nat
  /-- Bits queued for the host; the next to go is bit 7. -/
  dataIn : Byte
  /-- How many bits of `dataIn` are still to go, 0..8. -/
  dataInCount : Nat
  /-- Port B of VIA1 when the previous `WR.ORB` on VIA1 completed. -/
  lastPortB : Byte
  /-- The seconds bias. -/
  tickOffset : BitVec 32
deriving DecidableEq, Repr

/-- A byte-addressed memory: the listed bytes, by strictly rising address. The parameter RAM is
one (R38). -/
abbrev Memory := List Host.Cell

/-- What the block lets the environment see (R5): the byte a read returns, the calls made to the
ADB collaborator, the shutdown request. The two summary lines are no events but functions of the
state (R238). -/
inductive Output where
  | readByte (bank : BankId) (value : Byte)
  | adbCall (call : AdbCall)
  | shutdownRequest
deriving DecidableEq, Repr

/-- The inputs of the interrupt controller that the two summary lines are wired to: which they are
is the board's affair (R43, R237, R245; log entry 23). -/
structure IrqLines where
  /-- Where `IRQ[1]` goes. -/
  via1 : Nat
  /-- Where `IRQ[2]` goes. -/
  via2 : Nat
deriving DecidableEq, Repr

/-- The collaborators construction requires, each as far as the block meets it (R237, decision D37;
log entry 23). No field can be missing: a block without one of them cannot be built. -/
structure Wiring where
  /-- The register bus: the accesses it will make, and between them, in the order of the run, the
  events of the environment. A fan-in sink without a source has no `EXTIRQ` in the list. -/
  bus : List Stimulus
  /-- The virtual clock: the moment it shows (R41). -/
  clock : Nat
  /-- The ADB collaborator: the answers it will give, first one first (R190). -/
  adbScript : List AdbAnswer
  /-- The ADB collaborator: how many calls it has had, the argument of the free answer. -/
  adbCalls : Nat
  /-- The shutdown sink, and with it all else that receives outputs: what it has received, latest
  first (R5, R225). -/
  sink : List Output
  /-- The two interrupt output lines: where each one goes. -/
  irq : IrqLines
deriving DecidableEq, Repr

/-- The state of the block, and beside it the environment's side of its interfaces. -/
structure State where
  /-- `VIA[1]` (R21). -/
  via1 : Via
  /-- `VIA[2]` (R21). -/
  via2 : Via
  /-- The RTC sequencer (R36). -/
  rtc : Rtc
  /-- `PRAM[0..255]` (R38). -/
  pram : Memory
  /-- Deadline of the vertical-blank timer, in ns (R40). -/
  nextVbl : Nat
  /-- Deadline of the one-second timer, in ns (R40). -/
  nextSec : Nat
  /-- Deadline of the ADB poll timer, in ns (R40). -/
  nextAdb : Nat
  /-- The virtual clock, in ns (R41). -/
  now : Nat
  /-- The OPEN parameters (R6, R43, R52); no step changes them. -/
  params : Params
  /-- Where the two summary lines go (R43, R237); no step changes it. -/
  lines : IrqLines
  /-- The model's own: the stimuli the environment offers, first one first (R5, R71). -/
  pending : List Stimulus
  /-- The model's own: the answers the ADB collaborator will give, first one first (R190). -/
  adbScript : List AdbAnswer
  /-- The model's own: how many calls the ADB collaborator has had, the argument of the free
  answer. -/
  adbCalls : Nat
  /-- The model's own: the outputs so far, latest first (R5). -/
  outputs : List Output
deriving DecidableEq, Repr

/-- The faults of the block: none. R235: the block raises nothing, ever. -/
inductive Fault where
deriving DecidableEq, Repr

/-- Why the model has no step. -/
inductive Refusal where
  /-- Raised by an arm of `exec` whose instruction has no meaning yet; safe. No arm raises it. -/
  | notModelled (mnemonic : String)
  /-- Raised by `step` when what is on offer stands for no instruction: an access wider than a
  byte (R64) or an event code that names no event (R98); safe. -/
  | undecodable (why : Reject)
deriving DecidableEq, Repr

/-- A bank after reset, but for its ports (R51). -/
def Via.atReset (portA portB : Byte) : Via where
  a := portA
  b := portB
  dira := 0x00
  dirb := 0x00
  t1c := 0x0000
  t1l := 0x0000
  t1armed := false
  t2c := 0x0000
  t2ll := 0x00
  t2armed := false
  sr := 0x00
  acr := 0x00
  pcr := 0x00
  ifr := 0
  ier := 0

/-- The sequencer after reset: IDLE, nothing assembled or queued (R51). -/
def Rtc.atReset (portB : Byte) (tickOffset : BitVec 32) : Rtc where
  cmd := 0x00
  alt := 0x00
  wprotect := false
  dataOut := 0x00
  dataOutCount := 0
  dataIn := 0x00
  dataInCount := 0
  lastPortB := portB
  tickOffset := tickOffset

/-- The wiring of `State.reset`: nothing on offer, the clock at 0, no answer scripted, nothing
received, and the line of each bank at the input of the bank's own number (log entries 1, 3, 5, 13
and 23). -/
def Wiring.quiet : Wiring where
  bus := []
  clock := 0
  adbScript := []
  adbCalls := 0
  sink := []
  irq := ⟨1, 2⟩

/-- The machine right after construction and the `RESET` that ends it (R48, R51), taken at
`now = 0`. The OPEN parameters have their recommended values (log entry 2), and the two bases, for
which R6 recommends nothing, those of log entry 9. `TICK_OFFSET`, `now` and `PRAM_INIT`, for which
R6 recommends nothing either, are 0 (log entries 3 and 4); the collaborators are those of
`Wiring.quiet`. -/
def State.reset : State where
  via1 := Via.atReset 0x00 0x3C
  via2 := Via.atReset 0x00 0x00
  rtc := Rtc.atReset 0x3C 0
  pram := []
  nextVbl := 16630000
  nextSec := 1000000000
  nextAdb := 20000000
  now := 0
  params := Params.recommended
  lines := Wiring.quiet.irq
  pending := []
  adbScript := []
  adbCalls := 0
  outputs := []

/-- What a snapshot holds: the register files, the sequencer and the PRAM, and neither the
deadlines nor the clock (R254). -/
structure Snapshot where
  via1 : Via
  via2 : Via
  rtc : Rtc
  pram : Memory
deriving DecidableEq, Repr

end Sys2Proof.Machine
end

