-- ==== Sys2Proof/Machine/Flags.lean ====
section
/-! DEFINITION. The flags of the block (10_state R44): the interrupt flags and enables of a bank
and the summary line they make, and the condition bits of port B of VIA1 and VIA2. -/

namespace Sys2Proof.Machine

/-- The summary of a bank: some flag is pending and enabled (R12, R32, R238). -/
def Via.summary (v : Via) : Bool := v.ifr &&& v.ier != 0

/-- The byte a read of IFR returns: the summary in bit 7, the flags in bits 6..0 (R136). -/
def ifrByte (v : Via) : Byte := BitVec.ofBool v.summary ++ v.ifr

/-- The byte a read of IER returns: the configured bit 7, the enables in bits 6..0 (R138). -/
def ierByte (bit7 : Bool) (v : Via) : Byte := BitVec.ofBool bit7 ++ v.ier

/-- `IRQ_SET`, bit 7 of a byte written to IFR or IER (R84). -/
def irqSet (data : Byte) : Bool := data.getLsbD 7

/-- Bits 6..0 of a byte written to IFR or IER: the flags or enables it names (R84). -/
def irqBits (data : Byte) : BitVec 7 := data.extractLsb' 0 7

/-- The flags after a write of IFR: acknowledged where named, if `IRQ_SET` is set (R137). -/
def acknowledge (ifr : BitVec 7) (data : Byte) : BitVec 7 :=
  if irqSet data then ifr &&& ~~~irqBits data else ifr

/-- The enables after a write of IER: set or cleared where named, as `IRQ_SET` says (R139). -/
def setEnables (ier : BitVec 7) (data : Byte) : BitVec 7 :=
  if irqSet data then ier ||| irqBits data else ier &&& ~~~irqBits data

/-- The flags after fan-in line `line` took `level` (R220). Line 7 has no flag: its bit falls off
the seven that are stored (R222). -/
def fanIn (ifr : BitVec 7) (line : BitVec 3) (level : Bool) : BitVec 7 :=
  if level then ifr ||| 1#7 <<< line.toNat else ifr &&& ~~~(1#7 <<< line.toNat)

/-- The RTC is selected: its enable bit is 0 (R151). -/
def rtcEnabled (b : Byte) : Bool := b &&& Config.rtcEnbMask == 0

/-- The clock bit went from 0 to 1 between two writes of ORB (R152). -/
def risingEdge (last b : Byte) : Bool :=
  last &&& Config.rtcClkMask == 0 && b &&& Config.rtcClkMask != 0

/-- The clock bit went from 1 to 0 between two writes of ORB (R152). -/
def fallingEdge (last b : Byte) : Bool :=
  last &&& Config.rtcClkMask != 0 && b &&& Config.rtcClkMask == 0

/-- The RTC data pin is an output: bits go from the host to the chip (R153). -/
def hostToChip (dirb : Byte) : Bool := dirb &&& Config.rtcDataMask != 0

/-- Port B with the RTC data bit at `v`, whatever its direction (R155). -/
def withRtcData (b : Byte) (v : Bool) : Byte :=
  if v then b ||| Config.rtcDataMask else b &&& ~~~Config.rtcDataMask

/-- Port B with the ADB-interrupt bit at `v`, whatever its direction (R195). -/
def withAdbInt (b : Byte) (v : Bool) : Byte :=
  if v then b ||| Config.adbIntMask else b &&& ~~~Config.adbIntMask

/-- The ADB-interrupt bit of port B of VIA1 (R33). -/
def adbInt (b : Byte) : Bool := b &&& Config.adbIntMask != 0

/-- The shift register is configured for output (R27, R191). -/
def shiftOut (acr : Byte) : Bool := acr &&& Config.acrShiftOut != 0

/-- Timer 1 is free-running (R27, R214). -/
def t1Freerun (acr : Byte) : Bool := acr &&& Config.acrT1Freerun != 0

/-- The power bit is an output driven low (R224). -/
def powerLow (v : Via) : Bool :=
  v.dirb &&& Config.powerMask != 0 && v.b &&& Config.powerMask == 0

end Sys2Proof.Machine
end

