-- ==== Sys2Proof/WellFormed.lean ====
section
/-! DEFINITION. Which instructions some encoding of the spec stands for. Every operand type is as
wide as its field, so only the rows that mean "any other byte" and the two dead rows need a
check. -/

namespace Sys2Proof

/-- A byte that context FIRST leaves to `RTC.RDNOP`: bit 7 set and none of the patterns of
R91 rows 1 to 7. -/
def isOtherRead (b : Byte) : Bool :=
  b &&& 0x80 == 0x80 && b != 0x81 && b != 0x85 && b != 0x89 && b != 0x8D
    && b &&& 0xF3 != 0xA1 && b &&& 0xF8 != 0xB8

/-- A pending command that context WDATA leaves to `RTC.WRNOP`: bit 7 clear, not zero, and none
of the tests of R94 rows 1 to 5. -/
def isOtherWrite (cmd : Byte) : Bool :=
  cmd &&& 0x80 == 0x00 && cmd != 0x00 && cmd &&& 0xF8 != 0x38 && cmd &&& 0xF3 != 0x21
    && cmd != 0x35 && cmd != 0x01 && cmd != 0x05 && cmd != 0x09 && cmd != 0x0D

/-- The instruction is the reading of some encoding. The two dead rows are never reached (R166),
so no encoding stands for them. -/
def Instr.wellFormed : Instr → Bool
  | .rtcRdpramDead _ => false
  | .rtcWrpramDead _ _ => false
  | .rtcRdnop b => isOtherRead b
  | .rtcWrnop cmd _ => isOtherWrite cmd
  | .rdOrb _ | .wrOrb _ _ | .rdOrah _ | .wrOrah _ _ | .rdDdrb _ | .wrDdrb _ _ => true
  | .rdDdra _ | .wrDdra _ _ | .rdT1cl _ | .wrT1cl _ _ | .rdT1ch _ | .wrT1ch _ _ => true
  | .rdT1ll _ | .wrT1ll _ _ | .rdT1lh _ | .wrT1lh _ _ | .rdT2cl _ | .wrT2cl _ _ => true
  | .rdT2ch _ | .wrT2ch _ _ | .rdSr _ | .wrSr _ _ | .rdAcr _ | .wrAcr _ _ => true
  | .rdPcr _ | .wrPcr _ _ | .rdIfr _ | .wrIfr _ _ | .rdIer _ | .wrIer _ _ => true
  | .rdOra _ | .wrOra _ _ => true
  | .rtcRdsec0 | .rtcRdsec1 | .rtcRdsec2 | .rtcRdsec3 | .rtcRdpram _ | .rtcXrdsel _ => true
  | .rtcWrcmd _ | .rtcXrd _ _ | .rtcXwr _ _ | .rtcWrpram _ _ | .rtcWprot _ => true
  | .rtcWrsec0 _ | .rtcWrsec1 _ | .rtcWrsec2 _ | .rtcWrsec3 _ => true
  | .reset | .advance _ | .fireVbl | .fireSec | .fireAdbpoll => true
  | .tickT1 _ | .tickT2 _ | .extirq _ _ _ => true

end Sys2Proof
end

