-- ==== Sys2Proof/Decode.lean ====
section
/-! DEFINITION. The decoder of the three formats of R80, written as the spec's tables of masks and
patterns tried from top to bottom, and after it the encoder written from the same tables. -/

namespace Sys2Proof

/-! ## Fields -/

/-- The low-bank address field `aa`, bits 3..2 of a command byte (R95). -/
def aaField (b : Byte) : BitVec 2 := b.extractLsb' 2 2

/-- The sector of an extended command, bits 2..0 (R91, R93, R94). -/
def sectorField (b : Byte) : BitVec 3 := b.extractLsb' 0 3

/-- The address of an extended addressing byte, bits 6..2; bits 7, 1 and 0 are ignored (R93, R172). -/
def addrField (b : Byte) : BitVec 5 := b.extractLsb' 2 5

/-! ## Format BUS -/

/-- The transaction word `T = rw:addr[12:0]` of an access (R81). -/
def BusAccess.word (a : BusAccess) : BitVec 14 :=
  BitVec.ofBool a.write ++ BitVec.ofNat 13 a.addr

/-- One row of the table of R82. -/
structure BusRow where
  pattern : BitVec 14
  make : BankId → Byte → Instr

/-- The mask of every row of R82: bits 13..9 of `T` select the operation. -/
def busMask : BitVec 14 := 0x3E00

/-- The rows of R82 that read, by register index. -/
def busReadRows : List BusRow := [
  ⟨0x0000, fun b _ => .rdOrb b⟩,
  ⟨0x0200, fun b _ => .rdOrah b⟩,
  ⟨0x0400, fun b _ => .rdDdrb b⟩,
  ⟨0x0600, fun b _ => .rdDdra b⟩,
  ⟨0x0800, fun b _ => .rdT1cl b⟩,
  ⟨0x0A00, fun b _ => .rdT1ch b⟩,
  ⟨0x0C00, fun b _ => .rdT1ll b⟩,
  ⟨0x0E00, fun b _ => .rdT1lh b⟩,
  ⟨0x1000, fun b _ => .rdT2cl b⟩,
  ⟨0x1200, fun b _ => .rdT2ch b⟩,
  ⟨0x1400, fun b _ => .rdSr b⟩,
  ⟨0x1600, fun b _ => .rdAcr b⟩,
  ⟨0x1800, fun b _ => .rdPcr b⟩,
  ⟨0x1A00, fun b _ => .rdIfr b⟩,
  ⟨0x1C00, fun b _ => .rdIer b⟩,
  ⟨0x1E00, fun b _ => .rdOra b⟩]

/-- The rows of R82 that write, by register index. -/
def busWriteRows : List BusRow := [
  ⟨0x2000, fun b d => .wrOrb b d⟩,
  ⟨0x2200, fun b d => .wrOrah b d⟩,
  ⟨0x2400, fun b d => .wrDdrb b d⟩,
  ⟨0x2600, fun b d => .wrDdra b d⟩,
  ⟨0x2800, fun b d => .wrT1cl b d⟩,
  ⟨0x2A00, fun b d => .wrT1ch b d⟩,
  ⟨0x2C00, fun b d => .wrT1ll b d⟩,
  ⟨0x2E00, fun b d => .wrT1lh b d⟩,
  ⟨0x3000, fun b d => .wrT2cl b d⟩,
  ⟨0x3200, fun b d => .wrT2ch b d⟩,
  ⟨0x3400, fun b d => .wrSr b d⟩,
  ⟨0x3600, fun b d => .wrAcr b d⟩,
  ⟨0x3800, fun b d => .wrPcr b d⟩,
  ⟨0x3A00, fun b d => .wrIfr b d⟩,
  ⟨0x3C00, fun b d => .wrIer b d⟩,
  ⟨0x3E00, fun b d => .wrOra b d⟩]

/-- The 32 rows of R82. -/
def busRows : List BusRow := busReadRows ++ busWriteRows

/-- The operation a transaction word selects (R81, R82). -/
def decodeBusWord (rows : List BusRow) (word : BitVec 14) (bank : BankId) (data : Byte) :
    Except Reject Instr :=
  match rows with
  | [] => .error (.unassignedBusWord word)
  | row :: rest =>
    if word &&& busMask = row.pattern then .ok (row.make bank data)
    else decodeBusWord rest word bank data

/-- A bus access of one byte decodes by its transaction word; any other width is refused (R64). -/
def decodeBus (a : BusAccess) : Except Reject Instr :=
  if a.size = 1 then decodeBusWord busRows a.word a.bank a.data
  else .error (.wideAccess a.size)

/-! ## Format EVENT -/

/-- The event of a code `E`; codes 8..15 name none (R98). -/
def decodeEvent (e : EventCall) : Except Reject Instr :=
  match e.code.toNat with
  | 0 => .ok .reset
  | 1 => .ok (.advance e.dt)
  | 2 => .ok .fireVbl
  | 3 => .ok .fireSec
  | 4 => .ok .fireAdbpoll
  | 5 => .ok (.tickT1 e.bank)
  | 6 => .ok (.tickT2 e.bank)
  | 7 => .ok (.extirq e.bank e.line e.level)
  | _ => .error (.unassignedEvent e.code)

/-- What a stimulus offered by the environment stands for. -/
def decodeStimulus : Stimulus → Except Reject Instr
  | .bus a => decodeBus a
  | .event e => decodeEvent e

/-! ## Format RTC -/

/-- One row of the ordered rule lists of R91 and R94: the mask and pattern of the byte tested, and
the command, made from the byte tested and the byte just completed. -/
structure RtcRule where
  mask : Byte
  pattern : Byte
  make : Byte → Byte → Instr

/-- R91, rows 1 to 8 in order, the dead row 6 in its place (R166). -/
def rtcFirstRules : List RtcRule := [
  ⟨0xFF, 0x81, fun _ _ => .rtcRdsec0⟩,
  ⟨0xFF, 0x85, fun _ _ => .rtcRdsec1⟩,
  ⟨0xFF, 0x89, fun _ _ => .rtcRdsec2⟩,
  ⟨0xFF, 0x8D, fun _ _ => .rtcRdsec3⟩,
  ⟨0xF3, 0xA1, fun t _ => .rtcRdpram (aaField t)⟩,
  ⟨0xF3, 0xA1, fun t _ => .rtcRdpramDead (aaField t)⟩,
  ⟨0xF8, 0xB8, fun t _ => .rtcXrdsel (sectorField t)⟩,
  ⟨0x80, 0x80, fun t _ => .rtcRdnop t⟩]

/-- R94, rows 1 to 5 in order, the dead row 3 in its place (R166). -/
def rtcWdataRules : List RtcRule := [
  ⟨0xF8, 0x38, fun t b => .rtcXwr (sectorField t) b⟩,
  ⟨0xF3, 0x21, fun t b => .rtcWrpram (aaField t) b⟩,
  ⟨0xF3, 0x21, fun t b => .rtcWrpramDead (aaField t) b⟩,
  ⟨0xFF, 0x35, fun _ b => .rtcWprot (b.getLsbD 0)⟩,
  ⟨0xFF, 0x01, fun _ b => .rtcWrsec0 b⟩,
  ⟨0xFF, 0x05, fun _ b => .rtcWrsec1 b⟩,
  ⟨0xFF, 0x09, fun _ b => .rtcWrsec2 b⟩,
  ⟨0xFF, 0x0D, fun _ b => .rtcWrsec3 b⟩]

/-- The first rule whose pattern the tested byte meets, top to bottom (R91); `otherwise` is the
list's last row, which takes every byte the rows above it leave. -/
def firstRule (otherwise : Instr) (tested byte : Byte) : List RtcRule → Instr
  | [] => otherwise
  | r :: rest =>
    if tested &&& r.mask = r.pattern then r.make tested byte
    else firstRule otherwise tested byte rest

/-- The command a completed byte stands for. `cmd` chooses the context (R90, R158): FIRST when it
is 0 (R91, and R92 for a byte with bit 7 clear), XREAD when its bit 7 is set (R93), WDATA else
(R94). -/
def decodeRtc (cmd byte : Byte) : Instr :=
  if cmd = 0 then firstRule (.rtcWrcmd (byte.extractLsb' 0 7)) byte byte rtcFirstRules
  else if cmd.getLsbD 7 then .rtcXrd (sectorField cmd) (addrField byte)
  else firstRule (.rtcWrnop cmd byte) cmd byte rtcWdataRules

/-! ## The decoder -/

/-- The instruction an encoding stands for, or the name of the reason why it stands for none. -/
def decode : Encoded → Except Reject Instr
  | .stimulus st => decodeStimulus st
  | .rtc cmd byte => .ok (decodeRtc cmd byte)

/-! ## The encoder -/

/-- A read of register `idx` with the nine ignored address bits 0 (R66, R82). -/
def busRead (idx : Nat) (bank : BankId) : Encoded :=
  .stimulus (.bus ⟨bank, false, idx * 0x200, 1, 0x00⟩)

/-- A write of `data` to register `idx` (R66, R82). -/
def busWrite (idx : Nat) (bank : BankId) (data : Byte) : Encoded :=
  .stimulus (.bus ⟨bank, true, idx * 0x200, 1, data⟩)

/-- An event whose only operands are a bank and a time; the operands an event does not have are
zero. -/
def eventCall (code : BitVec 4) (bank : BankId) (dt : Nat) : Encoded :=
  .stimulus (.event ⟨code, dt, bank, 0, false⟩)

/-- The canonical encoding of an instruction: every ignored bit is 0. An RTC command is given by
the pending `cmd` and the completed byte that make the sequencer take it. -/
def encode : Instr → Encoded
  | .rdOrb b => busRead 0 b
  | .wrOrb b d => busWrite 0 b d
  | .rdOrah b => busRead 1 b
  | .wrOrah b d => busWrite 1 b d
  | .rdDdrb b => busRead 2 b
  | .wrDdrb b d => busWrite 2 b d
  | .rdDdra b => busRead 3 b
  | .wrDdra b d => busWrite 3 b d
  | .rdT1cl b => busRead 4 b
  | .wrT1cl b d => busWrite 4 b d
  | .rdT1ch b => busRead 5 b
  | .wrT1ch b d => busWrite 5 b d
  | .rdT1ll b => busRead 6 b
  | .wrT1ll b d => busWrite 6 b d
  | .rdT1lh b => busRead 7 b
  | .wrT1lh b d => busWrite 7 b d
  | .rdT2cl b => busRead 8 b
  | .wrT2cl b d => busWrite 8 b d
  | .rdT2ch b => busRead 9 b
  | .wrT2ch b d => busWrite 9 b d
  | .rdSr b => busRead 10 b
  | .wrSr b d => busWrite 10 b d
  | .rdAcr b => busRead 11 b
  | .wrAcr b d => busWrite 11 b d
  | .rdPcr b => busRead 12 b
  | .wrPcr b d => busWrite 12 b d
  | .rdIfr b => busRead 13 b
  | .wrIfr b d => busWrite 13 b d
  | .rdIer b => busRead 14 b
  | .wrIer b d => busWrite 14 b d
  | .rdOra b => busRead 15 b
  | .wrOra b d => busWrite 15 b d
  | .rtcRdsec0 => .rtc 0x00 0x81
  | .rtcRdsec1 => .rtc 0x00 0x85
  | .rtcRdsec2 => .rtc 0x00 0x89
  | .rtcRdsec3 => .rtc 0x00 0x8D
  | .rtcRdpram aa => .rtc 0x00 (0b1010#4 ++ aa ++ 0b01#2)
  | .rtcRdpramDead aa => .rtc 0x00 (0b1010#4 ++ aa ++ 0b01#2)
  | .rtcXrdsel sector => .rtc 0x00 (0b10111#5 ++ sector)
  | .rtcRdnop byte => .rtc 0x00 byte
  | .rtcWrcmd code => .rtc 0x00 (0b0#1 ++ code)
  | .rtcXrd sector addr => .rtc (0b10111#5 ++ sector) (0b0#1 ++ addr ++ 0b00#2)
  | .rtcXwr sector byte => .rtc (0b00111#5 ++ sector) byte
  | .rtcWrpram aa data => .rtc (0b0010#4 ++ aa ++ 0b01#2) data
  | .rtcWrpramDead aa data => .rtc (0b0010#4 ++ aa ++ 0b01#2) data
  | .rtcWprot p => .rtc 0x35 (0b0000000#7 ++ BitVec.ofBool p)
  | .rtcWrsec0 data => .rtc 0x01 data
  | .rtcWrsec1 data => .rtc 0x05 data
  | .rtcWrsec2 data => .rtc 0x09 data
  | .rtcWrsec3 data => .rtc 0x0D data
  | .rtcWrnop cmd data => .rtc cmd data
  | .reset => eventCall 0 .via1 0
  | .advance dt => eventCall 1 .via1 dt
  | .fireVbl => eventCall 2 .via1 0
  | .fireSec => eventCall 3 .via1 0
  | .fireAdbpoll => eventCall 4 .via1 0
  | .tickT1 b => eventCall 5 b 0
  | .tickT2 b => eventCall 6 b 0
  | .extirq b line level => .stimulus (.event ⟨7, 0, b, line, level⟩)

/-! ## Words of the opcode table -/

/-- What a bare word of the opcode table is taken for, all operands beside it being 0. A word of
more than 8 bits is the transaction word `T` of VIA1 (R81). A word of at most 8 bits is an event
code (R98) when it is one of the codes 0..7; of the others, one with bit 7 set is a completed byte
in context FIRST (R91) and one with bit 7 clear is a pending `cmd` whose next byte is 0x00 (R94).
The table does not say which of the three an 8-bit word is; log entry 7. -/
def tableWord (nbits w : Nat) : Option Encoded :=
  if 8 < nbits then
    if w < 2 ^ 14 then some (.stimulus (.bus ⟨.via1, w.testBit 13, w % 2 ^ 13, 1, 0x00⟩)) else none
  else if w < 8 then some (eventCall (BitVec.ofNat 4 w) .via1 0)
  else if w < 128 then some (.rtc (BitVec.ofNat 8 w) 0x00)
  else if w < 256 then some (.rtc 0x00 (BitVec.ofNat 8 w))
  else none

/-- The instruction the decoder reads from a bare word of the opcode table. -/
def decodeTableWord (nbits w : Nat) : Option Instr :=
  match tableWord nbits w with
  | none => none
  | some e =>
    match decode e with
    | .ok i => some i
    | .error _ => none

end Sys2Proof
end

