-- ==== Sys2Proof/Machine/Operands.lean ====
section
/-! DEFINITION. The operand forms of the rules: an absolute raw address, a port byte written under
its direction register, the two bytes of a 16-bit count, the index of a PRAM byte, the ADB state
field. -/

namespace Sys2Proof.Machine

/-- `VIA1_BASE` or `VIA2_BASE` (R6, R66). -/
def windowBase (p : Params) : BankId → Nat
  | .via1 => p.via1Base
  | .via2 => p.via2Base

/-- The absolute raw address stands in the window of the bank (R6, R66). -/
def inWindow (p : Params) (bank : BankId) (addr : Nat) : Bool :=
  decide (windowBase p bank ≤ addr) && decide (addr < windowBase p bank + Config.bankWindow)

/-- The bank an absolute raw address reaches, by its address range (R63). No address reaches both. -/
def bankAt (p : Params) (addr : Nat) : Option BankId :=
  match inWindow p .via1 addr, inWindow p .via2 addr with
  | true, false => some .via1
  | false, true => some .via2
  | _, _ => none

/-- The access that reaches the block when the bus master uses an absolute raw address: the bank
number and the offset inside the bank's window (R61, R63, R66). An address in no window does not
reach the block. -/
def accessAt (p : Params) (write : Bool) (addr size : Nat) (data : Byte) : Option BusAccess :=
  (bankAt p addr).map fun bank => ⟨bank, write, addr - windowBase p bank, size, data⟩

/-- A port write: the bits that are outputs take the written value, the others keep what they
held (R23, R111, R141, decision D5). -/
def maskedStore (old dir data : Byte) : Byte :=
  old &&& ~~~dir ||| data &&& dir

/-- Bits 7..0 of a count (R67). -/
def lowByte (c : Count) : Byte := c.extractLsb' 0 8

/-- Bits 15..8 of a count (R67). -/
def highByte (c : Count) : Byte := c.extractLsb' 8 8

/-- `high:low` (R67). -/
def joinBytes (high low : Byte) : Count := high ++ low

/-- A count with bits 7..0 replaced (R119, R123). -/
def withLowByte (c : Count) (v : Byte) : Count := joinBytes (highByte c) v

/-- A count with bits 15..8 replaced (R121, R125). -/
def withHighByte (c : Count) (v : Byte) : Count := joinBytes v (lowByte c)

/-- `LOW_PRAM_ADDR` of a low-bank command whose free bits are `aa`: `(B >> 2) & 0x0F`, which is
`8 + aa` for the bytes of the pattern, or `(B >> 2) & 0x03`, which is `aa` (R95, R166, 90_conflicts
C5). -/
def lowPramAddr (low : LowPram) (aa : BitVec 2) : Nat :=
  match low with
  | .nibble => 8 + aa.toNat
  | .twoBits => aa.toNat

/-- `XPRAM_STRIDE` as a number (R96, 90_conflicts C6). -/
def strideValue : XpramStride → Nat
  | .eight => 8
  | .thirtyTwo => 32

/-- The PRAM index of an extended command (R96). -/
def xpramAddr (stride : XpramStride) (sector : BitVec 3) (addr : BitVec 5) : Nat :=
  sector.toNat * strideValue stride + addr.toNat

/-- The ADB state field, bits 5..4 of port B of VIA1 (R33, R194). -/
def adbStateField (b : Byte) : BitVec 2 := b.extractLsb' 4 2

/-- Byte `n` of the 32-bit seconds value, byte 0 its bits 7..0 (R67). -/
def secondsByte (seconds : BitVec 32) (n : Nat) : Byte := seconds.extractLsb' (8 * n) 8

end Sys2Proof.Machine
end

