-- ==== Sys2Proof/Machine/Ops.lean ====
section
/-! DEFINITION. The operations the meanings share: a bank of the state, the PRAM as a memory, an
output, a call of the ADB collaborator, the reschedule formula, reset, construction, snapshot and
restore. There is no exception entry and no return from one to model: the block raises nothing
(R235), saves nothing and transfers control nowhere (R243, R244); what stands in their place is
the summary line `State.irq` and the acknowledge of `Flags`. -/

namespace Sys2Proof.Machine

/-! ## Banks -/

/-- `VIA[b]` (R8). -/
def State.via (s : State) : BankId → Via
  | .via1 => s.via1
  | .via2 => s.via2

/-- The state with `VIA[b]` replaced; the other bank is never touched (R21). -/
def State.setVia (s : State) (bank : BankId) (v : Via) : State :=
  match bank with
  | .via1 => { s with via1 := v }
  | .via2 => { s with via2 := v }

/-- `IRQ[b]`, the summary interrupt line of a bank (R238). -/
def State.irq (s : State) (bank : BankId) : Bool := (s.via bank).summary

/-- What the interrupt controller sees: the level of each bank's line at the input it is wired to
(R237, R238). -/
def State.driven (s : State) : List (Nat × Bool) :=
  [(s.lines.via1, s.irq .via1), (s.lines.via2, s.irq .via2)]

/-- The state with the sequencer replaced. -/
def State.setRtc (s : State) (r : Rtc) : State := { s with rtc := r }

/-- `emit` (R10): one more output. -/
def State.emit (s : State) (o : Output) : State := { s with outputs := o :: s.outputs }

/-- A bus read of `bank` returns `value`, and changes nothing else (R68). -/
def State.answerRead (s : State) (bank : BankId) (value : Byte) : State :=
  s.emit (.readByte bank value)

/-! ## Memory -/

/-- The byte at an address; an address the memory does not list reads as `Config.pramBlank`. -/
def Memory.read : Memory → Nat → Byte
  | [], _ => Config.pramBlank
  | (k, w) :: rest, a => if k = a then w else Memory.read rest a

/-- The memory with the byte at `a` written, in canonical form. -/
def Memory.write : Memory → Nat → Byte → Memory
  | [], a, v => if v = Config.pramBlank then [] else [(a, v)]
  | (k, w) :: rest, a, v =>
    if a < k then
      if v = Config.pramBlank then (k, w) :: rest else (a, v) :: (k, w) :: rest
    else if a = k then
      if v = Config.pramBlank then rest else (a, v) :: rest
    else (k, w) :: Memory.write rest a v

/-- Canonical from address `lo` on: rising addresses below `Config.pramSize`, no entry equal to
what an unlisted address reads as. -/
def Memory.wfFrom : Nat → Memory → Bool
  | _, [] => true
  | lo, (k, w) :: rest =>
    decide (lo ≤ k) && decide (k < Config.pramSize) && w != Config.pramBlank
      && Memory.wfFrom (k + 1) rest

/-- The memory has its canonical form. -/
def Memory.wf (m : Memory) : Bool := Memory.wfFrom 0 m

/-- `PRAM[i]` (R9). -/
def State.pramRead (s : State) (i : Nat) : Byte := Memory.read s.pram i

/-- `PRAM[i] <- v` (R9). -/
def State.pramWrite (s : State) (i : Nat) (v : Byte) : State :=
  { s with pram := Memory.write s.pram i v }

/-- A PRAM store of a command: suppressed under write protection (R172, R173, R178). -/
def State.pramStore (s : State) (i : Nat) (v : Byte) : State :=
  if s.rtc.wprotect then s else s.pramWrite i v

/-! ## The ADB collaborator -/

/-- The answer to a call: the environment's next scripted answer, or the free value of this call
where none is scripted (R190). -/
def State.adbReply (s : State) (call : AdbCall) : AdbAnswer :=
  match s.adbScript with
  | [] => Config.adbAnswer s.adbCalls call
  | ans :: _ => ans

/-- The state once a call has been made: the call is an output of the block (R190). -/
def State.adbAsked (s : State) (call : AdbCall) : State :=
  { s with
    adbScript := s.adbScript.tail
    adbCalls := s.adbCalls + 1
    outputs := .adbCall call :: s.outputs }

/-! ## Time -/

/-- `next(P)`: the smallest multiple of `P` after `now` (R206). -/
def nextDeadline (now period : Nat) : Nat := (now / period + 1) * period

/-- The three timers rescheduled at the present `now` (R206, R260). -/
def State.reschedule (s : State) : State :=
  { s with
    nextVbl := nextDeadline s.now Config.periodVbl
    nextSec := nextDeadline s.now Config.periodSec
    nextAdb := nextDeadline s.now Config.periodAdbpoll }

/-- The seconds value of the clock chip (R39, R160). -/
def State.seconds (s : State) : BitVec 32 :=
  s.rtc.tickOffset + BitVec.ofNat 32 (s.now / Config.nsPerSecond)

/-! ## Reset, construction, snapshot -/

/-- What `RESET` does: every field of both banks and of the sequencer at its default and the three
timers rescheduled; PRAM, `tickOffset`, `now` and the wiring kept (R260, R261). It runs no hook
(R263). -/
def State.resetBlock (s : State) : State :=
  { s with
    via1 := Via.atReset s.params.portAReset1 s.params.portBReset1
    via2 := Via.atReset s.params.portAReset2 s.params.portBReset2
    rtc := Rtc.atReset s.params.portBReset1 s.rtc.tickOffset }.reschedule

/-- Construction, which creates the instance with its parameters, `PRAM_INIT`, `TICK_OFFSET` and
every collaborator it requires, and ends with a `RESET` (R48, R49, R237, R256). Every field is an
argument's or one that the `RESET` sets. -/
def State.construct (params : Params) (pramInit : Memory) (tickOffset : BitVec 32)
    (wiring : Wiring) : State :=
  State.resetBlock
    { State.reset with
      params := params
      pram := pramInit
      rtc := Rtc.atReset params.portBReset1 tickOffset
      lines := wiring.irq
      now := wiring.clock
      pending := wiring.bus
      adbScript := wiring.adbScript
      adbCalls := wiring.adbCalls
      outputs := wiring.sink }

/-- The persisted-state snapshot surface (R254). -/
def State.snapshot (s : State) : Snapshot := ⟨s.via1, s.via2, s.rtc, s.pram⟩

/-- A restore writes the snapshot back and recomputes the deadlines from the `now` of the
restoring environment (R254, decision D36). -/
def State.restore (s : State) (k : Snapshot) : State :=
  { s with via1 := k.via1, via2 := k.via2, rtc := k.rtc, pram := k.pram }.reschedule

/-! ## Offering a stimulus -/

/-- The stimulus comes from a source connected to the fan-in sink of `bank` (R220). -/
def fansIn (bank : BankId) (st : Stimulus) : Bool :=
  match decodeStimulus st with
  | .ok (.extirq b _ _) => decide (b = bank)
  | _ => false

/-- Nothing on offer comes from a source at the fan-in sink of `bank`, as when none is connected
(R237). -/
def State.fanInSilent (s : State) (bank : BankId) : Bool :=
  s.pending.all fun st => !fansIn bank st

/-- The stimulus is offered before all others. -/
def State.offer (s : State) (st : Stimulus) : State := { s with pending := st :: s.pending }

/-- The state in which the next stimulus clocks in the eighth bit of `byte` while `cmd` is pending.
A command of format RTC is no stimulus (R80): the sequencer is selected, its data and clock pins
are outputs, seven bits are in, the clock is low, and a `WR.ORB` on VIA1 that raises the clock with
the last bit is on offer (R85, R154, R156). -/
def State.offerRtc (s : State) (cmd byte : Byte) : State :=
  let low := s.via1.b &&& ~~~0x07#8
  { s with
    via1 := { s.via1 with b := low, dirb := s.via1.dirb ||| 0x07 }
    rtc := { s.rtc with
      cmd := cmd
      dataOut := byte >>> 1
      dataOutCount := 7
      lastPortB := low } }.offer
    (.bus ⟨.via1, true, 0x0000, 1, low ||| Config.rtcClkMask ||| byte &&& Config.rtcDataMask⟩)

/-! ## Outcomes -/

/-- What a meaning answers: every stimulus completes (R70, R235). -/
abbrev Result := Host.Outcome State Fault Refusal

end Sys2Proof.Machine
end

