-- ==== Sys2Proof/Machine/Control.lean ====
section
/-! DEFINITION. The bus operations on the shift register and the control and interrupt registers,
indices 10 to 14 (40_register_access R130 to R139). -/

namespace Sys2Proof.Machine

/-- `RD.SR`: no shift is started and no flag cleared (R130). -/
def execRdSr (bank : BankId) (s : State) : Result :=
  .next (s.answerRead bank (s.via bank).sr)

/-- `WR.SR`: stored, and nothing else (R131). -/
def execWrSr (bank : BankId) (data : Byte) (s : State) : Result :=
  .next (s.setVia bank { s.via bank with sr := data })

/-- `RD.ACR` (R132). -/
def execRdAcr (bank : BankId) (s : State) : Result :=
  .next (s.answerRead bank (s.via bank).acr)

/-- `WR.ACR`: all eight bits are stored (R133). -/
def execWrAcr (bank : BankId) (data : Byte) (s : State) : Result :=
  .next (s.setVia bank { s.via bank with acr := data })

/-- `RD.PCR` (R134). -/
def execRdPcr (bank : BankId) (s : State) : Result :=
  .next (s.answerRead bank (s.via bank).pcr)

/-- `WR.PCR`: every write is accepted and stored (R135). -/
def execWrPcr (bank : BankId) (data : Byte) (s : State) : Result :=
  .next (s.setVia bank { s.via bank with pcr := data })

/-- `RD.IFR`: the flags, enabled or not, and the summary in bit 7 (R136). -/
def execRdIfr (bank : BankId) (s : State) : Result :=
  .next (s.answerRead bank (ifrByte (s.via bank)))

/-- `WR.IFR`: acknowledge by write (R137). -/
def execWrIfr (bank : BankId) (data : Byte) (s : State) : Result :=
  .next (s.setVia bank { s.via bank with ifr := acknowledge (s.via bank).ifr data })

/-- `RD.IER` (R138). -/
def execRdIer (bank : BankId) (s : State) : Result :=
  .next (s.answerRead bank (ierByte s.params.ierReadBit7 (s.via bank)))

/-- `WR.IER`: set or clear enables (R139). -/
def execWrIer (bank : BankId) (data : Byte) (s : State) : Result :=
  .next (s.setVia bank { s.via bank with ier := setEnables (s.via bank).ier data })

end Sys2Proof.Machine
end

