-- ==== Sys2Proof/Machine/Adb.lean ====
section
/-! DEFINITION. The ADB multiplexer on VIA1 (42_adb): the transfer that every `WR.ORB` makes and
the autonomous poll. It sets no interrupt flag (R30, R195). -/

namespace Sys2Proof.Machine

/-- Port B of VIA1 with the ADB-interrupt bit at `v`. -/
def State.setAdbInt (s : State) (v : Bool) : State :=
  { s with via1 := { s.via1 with b := withAdbInt s.via1.b v } }

/-- The shift register of VIA1 takes the collaborator's byte. -/
def State.setSr1 (s : State) (v : Byte) : State :=
  { s with via1 := { s.via1 with sr := v } }

/-- `ADB.SEND`: the byte in `sr` and the state go out; a positive answer clears the ADB-interrupt
bit, any other sets it (R192). -/
def State.adbSend (s : State) : State :=
  let call := AdbCall.send (adbStateField s.via1.b) s.via1.sr
  (s.adbAsked call).setAdbInt (decide ((s.adbReply call).ret ≤ 0))

/-- `ADB.RECV`: `sr` takes the answer's byte; the bit is cleared by a positive answer whose byte is
not 0xFF, and set by any other (R193). -/
def State.adbReceive (s : State) : State :=
  let call := AdbCall.receive (adbStateField s.via1.b) s.via1.sr
  let ans := s.adbReply call
  ((s.adbAsked call).setSr1 ans.byte).setAdbInt (!(decide (0 < ans.ret) && ans.byte != 0xFF))

/-- `AdbTransfer()`, once in every `WR.ORB` on VIA1 (R191). -/
def State.adbTransfer (s : State) : State :=
  if shiftOut s.via1.acr then s.adbSend else s.adbReceive

/-- `AdbPoll()`: while the ADB-interrupt bit is set the collaborator may put a byte in `sr`; the
bit is cleared on success and stays set otherwise (R196). -/
def State.adbPoll (s : State) : State :=
  if adbInt s.via1.b then
    let call := AdbCall.poll (adbStateField s.via1.b) s.via1.sr
    let ans := s.adbReply call
    let t := (s.adbAsked call).setSr1 ans.byte
    if ans.ok then t.setAdbInt false else t
  else s

end Sys2Proof.Machine
end

