-- ==== Sys2Proof/Machine/Events.lean ====
section
/-! DEFINITION. The events: reset, the virtual clock and the three periodic timers, the two
counters of a bank, the external interrupt fan-in (43_timers_fanin, 70_reset_and_hazards R260). -/

namespace Sys2Proof.Machine

/-- `RESET` (R260). -/
def execReset (s : State) : Result := .next s.resetBlock

/-- `ADVANCE`: time passes and nothing fires by it alone (R205). -/
def execAdvance (dt : Nat) (s : State) : Result := .next { s with now := s.now + dt }

/-- The vertical blank is served: its flag, and the next deadline (R208). -/
def State.serveVbl (s : State) : State :=
  { s with
    via1 := { s.via1 with ifr := s.via1.ifr ||| Config.ifrVbl }
    nextVbl := nextDeadline s.now Config.periodVbl }

/-- `FIRE.VBL`. Before the deadline the clock takes no such step (R207): offering it then changes
nothing. DESIGN CHOICE, safe; log entry 6. -/
def execFireVbl (s : State) : Result :=
  if s.nextVbl ≤ s.now then .next s.serveVbl else .next s

/-- The one-second tick is served (R209). -/
def State.serveSec (s : State) : State :=
  { s with
    via1 := { s.via1 with ifr := s.via1.ifr ||| Config.ifrSec }
    nextSec := nextDeadline s.now Config.periodSec }

/-- `FIRE.SEC`, enabled from its deadline on (R207, R209); log entry 6. -/
def execFireSec (s : State) : Result :=
  if s.nextSec ≤ s.now then .next s.serveSec else .next s

/-- The ADB poll is served: input and output only, no flag (R210). -/
def State.serveAdbpoll (s : State) : State :=
  { s.adbPoll with nextAdb := nextDeadline s.now Config.periodAdbpoll }

/-- `FIRE.ADBPOLL`, enabled from its deadline on (R207, R210); log entry 6. -/
def execFireAdbpoll (s : State) : Result :=
  if s.nextAdb ≤ s.now then .next s.serveAdbpoll else .next s

/-- Timer 1 of a bank after one tick (R214). -/
def Via.tickT1 (v : Via) : Via :=
  if v.t1c = 0 then
    if t1Freerun v.acr then { v with t1c := v.t1l, ifr := v.ifr ||| Config.ifrT1 }
    else if v.t1armed then
      { v with t1c := 0xFFFF, ifr := v.ifr ||| Config.ifrT1, t1armed := false }
    else { v with t1c := 0xFFFF }
  else { v with t1c := v.t1c - 1 }

/-- `TICK.T1` (R214). -/
def execTickT1 (bank : BankId) (s : State) : Result :=
  .next (s.setVia bank (s.via bank).tickT1)

/-- Timer 2 of a bank after one tick: a one-shot only (R215). -/
def Via.tickT2 (v : Via) : Via :=
  if v.t2c = 0 then
    if v.t2armed then
      { v with t2c := 0xFFFF, ifr := v.ifr ||| Config.ifrT2, t2armed := false }
    else { v with t2c := 0xFFFF }
  else { v with t2c := v.t2c - 1 }

/-- `TICK.T2` (R215). -/
def execTickT2 (bank : BankId) (s : State) : Result :=
  .next (s.setVia bank (s.via bank).tickT2)

/-- `EXTIRQ`: the flag follows the change of the line, and no copy of the level is kept (R220,
R221); line 7 is ignored (R222). -/
def execExtirq (bank : BankId) (line : BitVec 3) (level : Bool) (s : State) : Result :=
  .next (s.setVia bank { s.via bank with ifr := fanIn (s.via bank).ifr line level })

end Sys2Proof.Machine
end

