-- ==== Sys2Proof/Machine/Rtc.lean ====
section
/-! DEFINITION. The RTC/PRAM sequencer (41_rtc_pram): the meanings of the 19 rows of the command
map, then `Dispatch` and the bit-serial layer `RtcStep`, which run them inside a `WR.ORB` on
VIA1. -/

namespace Sys2Proof.Machine

/-! ## What the commands share -/

/-- Queue one byte for the host (R161 to R165, R170, R179). -/
def State.queueResponse (s : State) (v : Byte) : State :=
  s.setRtc { s.rtc with dataIn := v, dataInCount := 8 }

/-- Back to IDLE: the pending command is done (R159, decision D25). -/
def State.endCommand (s : State) : State := s.setRtc { s.rtc with cmd := 0x00 }

/-- Latch a command byte (R167, R169). -/
def State.latchCommand (s : State) (cmd : Byte) : State := s.setRtc { s.rtc with cmd := cmd }

/-! ## Context FIRST -/

/-- `RTC.RDSEC0` (R161). -/
def execRtcRdsec0 (s : State) : Result := .next (s.queueResponse (secondsByte s.seconds 0))

/-- `RTC.RDSEC1` (R162). -/
def execRtcRdsec1 (s : State) : Result := .next (s.queueResponse (secondsByte s.seconds 1))

/-- `RTC.RDSEC2` (R163). -/
def execRtcRdsec2 (s : State) : Result := .next (s.queueResponse (secondsByte s.seconds 2))

/-- `RTC.RDSEC3` (R164). -/
def execRtcRdsec3 (s : State) : Result := .next (s.queueResponse (secondsByte s.seconds 3))

/-- `RTC.RDPRAM` (R165). -/
def execRtcRdpram (aa : BitVec 2) (s : State) : Result :=
  .next (s.queueResponse (s.pramRead (lowPramAddr s.params.lowPram aa)))

/-- The dead duplicate of `RTC.RDPRAM`: never reached, no effect (R166). -/
def execRtcRdpramDead (_aa : BitVec 2) (s : State) : Result := .next s

/-- `RTC.XRDSEL`: the designator is latched, nothing is queued (R167). -/
def execRtcXrdsel (sector : BitVec 3) (s : State) : Result :=
  .next (s.latchCommand (0b10111#5 ++ sector))

/-- `RTC.RDNOP`: ignored (R168). -/
def execRtcRdnop (_byte : Byte) (s : State) : Result := .next s

/-- `RTC.WRCMD`: the byte is latched, 0x00 too, which leaves the sequencer idle (R169). -/
def execRtcWrcmd (code : BitVec 7) (s : State) : Result :=
  .next (s.latchCommand (0b0#1 ++ code))

/-! ## Context XREAD -/

/-- `RTC.XRD` (R170). -/
def execRtcXrd (sector : BitVec 3) (addr : BitVec 5) (s : State) : Result :=
  .next (s.queueResponse (s.pramRead (xpramAddr s.params.xpramStride sector addr))).endCommand

/-! ## Context WDATA -/

/-- `RTC.XWR`: with no addressing byte latched the byte becomes it, whole, and the command stays
pending (R171); with one latched the byte is the data and the cycle ends (R172). An addressing
byte 0x00 is not recorded (R171, R279). -/
def execRtcXwr (sector : BitVec 3) (byte : Byte) (s : State) : Result :=
  if s.rtc.alt = 0x00 then .next (s.setRtc { s.rtc with alt := byte })
  else
    let stored := s.pramStore (xpramAddr s.params.xpramStride sector (addrField s.rtc.alt)) byte
    .next (stored.setRtc { stored.rtc with alt := 0x00, cmd := 0x00 })

/-- `RTC.WRPRAM` (R173). -/
def execRtcWrpram (aa : BitVec 2) (data : Byte) (s : State) : Result :=
  .next (s.pramStore (lowPramAddr s.params.lowPram aa) data).endCommand

/-- The dead duplicate of `RTC.WRPRAM`: never reached, no effect (R166). -/
def execRtcWrpramDead (_aa : BitVec 2) (_data : Byte) (s : State) : Result := .next s

/-- `RTC.WPROT`: carried out whatever the present protection (R174). -/
def execRtcWprot (p : Bool) (s : State) : Result :=
  .next (s.setRtc { s.rtc with wprotect := p, cmd := 0x00 })

/-- `RTC.WRSEC0`: the data byte is consumed and discarded (R175). -/
def execRtcWrsec0 (_data : Byte) (s : State) : Result := .next s.endCommand

/-- `RTC.WRSEC1`: the data byte is consumed and discarded (R175). -/
def execRtcWrsec1 (_data : Byte) (s : State) : Result := .next s.endCommand

/-- `RTC.WRSEC2`: the data byte is consumed and discarded (R175). -/
def execRtcWrsec2 (_data : Byte) (s : State) : Result := .next s.endCommand

/-- `RTC.WRSEC3`: the data byte is consumed and discarded (R175). -/
def execRtcWrsec3 (_data : Byte) (s : State) : Result := .next s.endCommand

/-- `RTC.WRNOP`: the data byte is consumed and discarded (R176). -/
def execRtcWrnop (_cmd _data : Byte) (s : State) : Result := .next s.endCommand

/-! ## Dispatch -/

/-- The meaning of a row of format RTC; a bus access or an event is none, and is not given one
here. -/
def execRtcCommand (i : Instr) (s : State) : Result :=
  match i with
  | .rtcRdsec0 => execRtcRdsec0 s
  | .rtcRdsec1 => execRtcRdsec1 s
  | .rtcRdsec2 => execRtcRdsec2 s
  | .rtcRdsec3 => execRtcRdsec3 s
  | .rtcRdpram aa => execRtcRdpram aa s
  | .rtcRdpramDead aa => execRtcRdpramDead aa s
  | .rtcXrdsel sector => execRtcXrdsel sector s
  | .rtcRdnop byte => execRtcRdnop byte s
  | .rtcWrcmd code => execRtcWrcmd code s
  | .rtcXrd sector addr => execRtcXrd sector addr s
  | .rtcXwr sector byte => execRtcXwr sector byte s
  | .rtcWrpram aa data => execRtcWrpram aa data s
  | .rtcWrpramDead aa data => execRtcWrpramDead aa data s
  | .rtcWprot p => execRtcWprot p s
  | .rtcWrsec0 data => execRtcWrsec0 data s
  | .rtcWrsec1 data => execRtcWrsec1 data s
  | .rtcWrsec2 data => execRtcWrsec2 data s
  | .rtcWrsec3 data => execRtcWrsec3 data s
  | .rtcWrnop cmd data => execRtcWrnop cmd data s
  | .rdOrb _ | .wrOrb _ _ | .rdOrah _ | .wrOrah _ _ | .rdDdrb _ | .wrDdrb _ _ => .next s
  | .rdDdra _ | .wrDdra _ _ | .rdT1cl _ | .wrT1cl _ _ | .rdT1ch _ | .wrT1ch _ _ => .next s
  | .rdT1ll _ | .wrT1ll _ _ | .rdT1lh _ | .wrT1lh _ _ | .rdT2cl _ | .wrT2cl _ _ => .next s
  | .rdT2ch _ | .wrT2ch _ _ | .rdSr _ | .wrSr _ _ | .rdAcr _ | .wrAcr _ _ => .next s
  | .rdPcr _ | .wrPcr _ _ | .rdIfr _ | .wrIfr _ _ | .rdIer _ | .wrIer _ _ => .next s
  | .rdOra _ | .wrOra _ _ | .reset | .advance _ | .fireVbl | .fireSec => .next s
  | .fireAdbpoll | .tickT1 _ | .tickT2 _ | .extirq _ _ _ => .next s

/-- The state an outcome goes on from: `s` itself where there is none. No meaning of format RTC
has any outcome but a next state (R99, R236). -/
def nextOr (s : State) : Result → State
  | .next t => t
  | .fault _ => s
  | .refused _ => s

/-- `Dispatch(B)`: the command the completed byte stands for, in the context that `RTC.cmd` makes
(R158). -/
def State.dispatch (s : State) (byte : Byte) : State :=
  nextOr s (execRtcCommand (decodeRtc s.rtc.cmd byte) s)

/-! ## The bit-serial layer -/

/-- One bit from the host, most significant first (R154). -/
def State.takeBit (s : State) : State :=
  s.setRtc { s.rtc with
    dataOut := s.rtc.dataOut <<< 1 ||| s.via1.b &&& Config.rtcDataMask
    dataOutCount := s.rtc.dataOutCount + 1 }

/-- One bit to the host, put into port B whatever the direction register says, if one is queued
(R155). -/
def State.presentBit (s : State) : State :=
  if 0 < s.rtc.dataInCount then
    { s with
      via1 := { s.via1 with b := withRtcData s.via1.b (s.rtc.dataIn.getLsbD 7) }
      rtc := { s.rtc with
        dataIn := s.rtc.dataIn <<< 1
        dataInCount := s.rtc.dataInCount - 1 } }
  else s

/-- The bit transfer of one call: which one the direction bit says, if the clock has the edge for
it (R152 to R155). -/
def State.moveBit (s : State) : State :=
  if hostToChip s.via1.dirb then
    if risingEdge s.rtc.lastPortB s.via1.b then s.takeBit else s
  else
    if fallingEdge s.rtc.lastPortB s.via1.b then s.presentBit else s

/-- Byte completion: eight bits are dispatched and the assembly starts again (R156). -/
def State.completeByte (s : State) : State :=
  if s.rtc.dataOutCount = 8 then
    let t := s.dispatch s.rtc.dataOut
    t.setRtc { t.rtc with dataOut := 0x00, dataOutCount := 0 }
  else s

/-- `RtcStep()`, on the port B just stored; skipped while the chip is deselected, when every field
keeps its value (R150, R151, R180). -/
def State.rtcStep (s : State) : State :=
  if rtcEnabled s.via1.b then s.moveBit.completeByte else s

end Sys2Proof.Machine
end

