-- ==== Sys2Proof/Machine/Ports.lean ====
section
/-! DEFINITION. The bus operations on the ports and their direction registers: indices 0, 1, 2, 3
and 15 (40_register_access R110 to R117, R140, R141), with the port-B hooks. -/

namespace Sys2Proof.Machine

/-- `RD.ORB` (R110). -/
def execRdOrb (bank : BankId) (s : State) : Result :=
  .next (s.answerRead bank (s.via bank).b)

/-- The store of `WR.ORB`, before the hook (R111). -/
def State.storePortB (s : State) (bank : BankId) (data : Byte) : State :=
  s.setVia bank { s.via bank with b := maskedStore (s.via bank).b (s.via bank).dirb data }

/-- `RTC.lastPortB <- VIA[1].b`, at the end of every `WR.ORB` on VIA1 (R157). -/
def State.rememberPortB (s : State) : State :=
  s.setRtc { s.rtc with lastPortB := s.via1.b }

/-- The port-B hook of VIA1, in the order of R111: RTC step, ADB transfer, `lastPortB`. -/
def State.hookVia1 (s : State) : State := s.rtcStep.adbTransfer.rememberPortB

/-- `PowerCheck()`, the port-B hook of VIA2: a request whenever the bit is an output and low, and
no other change (R224, R225). -/
def State.powerCheck (s : State) : State :=
  if powerLow s.via2 then s.emit .shutdownRequest else s

/-- `WR.ORB`: the masked store, then the bank's hook, on every write (R111). -/
def execWrOrb (bank : BankId) (data : Byte) (s : State) : Result :=
  match bank with
  | .via1 => .next (s.storePortB .via1 data).hookVia1
  | .via2 => .next (s.storePortB .via2 data).powerCheck

/-- `RD.ORAH`: the unused register returns the OPEN parameter `UNUSED_READ` (R112). -/
def execRdOrah (bank : BankId) (s : State) : Result :=
  .next (s.answerRead bank s.params.unusedRead)

/-- `WR.ORAH`: ignored (R113). -/
def execWrOrah (_bank : BankId) (_data : Byte) (s : State) : Result := .next s

/-- `RD.DDRB` (R114). -/
def execRdDdrb (bank : BankId) (s : State) : Result :=
  .next (s.answerRead bank (s.via bank).dirb)

/-- `WR.DDRB`: the directions alone; no hook runs (R115). -/
def execWrDdrb (bank : BankId) (data : Byte) (s : State) : Result :=
  .next (s.setVia bank { s.via bank with dirb := data })

/-- `RD.DDRA` (R116). -/
def execRdDdra (bank : BankId) (s : State) : Result :=
  .next (s.answerRead bank (s.via bank).dira)

/-- `WR.DDRA` (R117). -/
def execWrDdra (bank : BankId) (data : Byte) (s : State) : Result :=
  .next (s.setVia bank { s.via bank with dira := data })

/-- `RD.ORA` (R140). -/
def execRdOra (bank : BankId) (s : State) : Result :=
  .next (s.answerRead bank (s.via bank).a)

/-- `WR.ORA`: the masked store; port A has no hook (R141). -/
def execWrOra (bank : BankId) (data : Byte) (s : State) : Result :=
  .next (s.setVia bank
    { s.via bank with a := maskedStore (s.via bank).a (s.via bank).dira data })

end Sys2Proof.Machine
end

