-- ==== Sys2Proof/Machine/Timers.lean ====
section
/-! DEFINITION. The bus operations on the timer registers, indices 4 to 9 (40_register_access R118
to R129). None of them touches an interrupt flag (R68, decision D12). -/

namespace Sys2Proof.Machine

/-- `RD.T1CL` (R118). -/
def execRdT1cl (bank : BankId) (s : State) : Result :=
  .next (s.answerRead bank (lowByte (s.via bank).t1c))

/-- `WR.T1CL`: the latch's low byte (R119). -/
def execWrT1cl (bank : BankId) (data : Byte) (s : State) : Result :=
  .next (s.setVia bank { s.via bank with t1l := withLowByte (s.via bank).t1l data })

/-- `RD.T1CH` (R120). -/
def execRdT1ch (bank : BankId) (s : State) : Result :=
  .next (s.answerRead bank (highByte (s.via bank).t1c))

/-- `WR.T1CH`: the latch's high byte, then the counter takes the whole latch and the timer is
armed (R121). -/
def execWrT1ch (bank : BankId) (data : Byte) (s : State) : Result :=
  let latch := withHighByte (s.via bank).t1l data
  .next (s.setVia bank { s.via bank with t1l := latch, t1c := latch, t1armed := true })

/-- `RD.T1LL` (R122). -/
def execRdT1ll (bank : BankId) (s : State) : Result :=
  .next (s.answerRead bank (lowByte (s.via bank).t1l))

/-- `WR.T1LL`: the latch's low byte, as `WR.T1CL` (R123). -/
def execWrT1ll (bank : BankId) (data : Byte) (s : State) : Result :=
  .next (s.setVia bank { s.via bank with t1l := withLowByte (s.via bank).t1l data })

/-- `RD.T1LH` (R124). -/
def execRdT1lh (bank : BankId) (s : State) : Result :=
  .next (s.answerRead bank (highByte (s.via bank).t1l))

/-- `WR.T1LH`: the latch's high byte; the counter is not loaded (R125). -/
def execWrT1lh (bank : BankId) (data : Byte) (s : State) : Result :=
  .next (s.setVia bank { s.via bank with t1l := withHighByte (s.via bank).t1l data })

/-- `RD.T2CL`: the counter, not the latch (R126). -/
def execRdT2cl (bank : BankId) (s : State) : Result :=
  .next (s.answerRead bank (lowByte (s.via bank).t2c))

/-- `WR.T2CL`: the hidden low latch (R127). -/
def execWrT2cl (bank : BankId) (data : Byte) (s : State) : Result :=
  .next (s.setVia bank { s.via bank with t2ll := data })

/-- `RD.T2CH` (R128). -/
def execRdT2ch (bank : BankId) (s : State) : Result :=
  .next (s.answerRead bank (highByte (s.via bank).t2c))

/-- `WR.T2CH`: the counter takes the byte and the low latch, and the timer is armed (R129). -/
def execWrT2ch (bank : BankId) (data : Byte) (s : State) : Result :=
  .next (s.setVia bank
    { s.via bank with t2c := joinBytes data (s.via bank).t2ll, t2armed := true })

end Sys2Proof.Machine
end

