-- ==== Sys2Proof/Machine/Dispatch.lean ====
section
/-! DEFINITION. One arm per constructor of `Instr`, each one call of its meaning. -/

namespace Sys2Proof.Machine

/-- The meaning of every row of the opcode table. -/
def exec (i : Instr) (s : State) : Host.Outcome State Fault Refusal :=
  match i with
  | .rdOrb bank => Sys2Proof.Machine.execRdOrb bank s
  | .wrOrb bank data => Sys2Proof.Machine.execWrOrb bank data s
  | .rdOrah bank => Sys2Proof.Machine.execRdOrah bank s
  | .wrOrah bank data => Sys2Proof.Machine.execWrOrah bank data s
  | .rdDdrb bank => Sys2Proof.Machine.execRdDdrb bank s
  | .wrDdrb bank data => Sys2Proof.Machine.execWrDdrb bank data s
  | .rdDdra bank => Sys2Proof.Machine.execRdDdra bank s
  | .wrDdra bank data => Sys2Proof.Machine.execWrDdra bank data s
  | .rdT1cl bank => Sys2Proof.Machine.execRdT1cl bank s
  | .wrT1cl bank data => Sys2Proof.Machine.execWrT1cl bank data s
  | .rdT1ch bank => Sys2Proof.Machine.execRdT1ch bank s
  | .wrT1ch bank data => Sys2Proof.Machine.execWrT1ch bank data s
  | .rdT1ll bank => Sys2Proof.Machine.execRdT1ll bank s
  | .wrT1ll bank data => Sys2Proof.Machine.execWrT1ll bank data s
  | .rdT1lh bank => Sys2Proof.Machine.execRdT1lh bank s
  | .wrT1lh bank data => Sys2Proof.Machine.execWrT1lh bank data s
  | .rdT2cl bank => Sys2Proof.Machine.execRdT2cl bank s
  | .wrT2cl bank data => Sys2Proof.Machine.execWrT2cl bank data s
  | .rdT2ch bank => Sys2Proof.Machine.execRdT2ch bank s
  | .wrT2ch bank data => Sys2Proof.Machine.execWrT2ch bank data s
  | .rdSr bank => Sys2Proof.Machine.execRdSr bank s
  | .wrSr bank data => Sys2Proof.Machine.execWrSr bank data s
  | .rdAcr bank => Sys2Proof.Machine.execRdAcr bank s
  | .wrAcr bank data => Sys2Proof.Machine.execWrAcr bank data s
  | .rdPcr bank => Sys2Proof.Machine.execRdPcr bank s
  | .wrPcr bank data => Sys2Proof.Machine.execWrPcr bank data s
  | .rdIfr bank => Sys2Proof.Machine.execRdIfr bank s
  | .wrIfr bank data => Sys2Proof.Machine.execWrIfr bank data s
  | .rdIer bank => Sys2Proof.Machine.execRdIer bank s
  | .wrIer bank data => Sys2Proof.Machine.execWrIer bank data s
  | .rdOra bank => Sys2Proof.Machine.execRdOra bank s
  | .wrOra bank data => Sys2Proof.Machine.execWrOra bank data s
  | .rtcRdsec0 => Sys2Proof.Machine.execRtcRdsec0 s
  | .rtcRdsec1 => Sys2Proof.Machine.execRtcRdsec1 s
  | .rtcRdsec2 => Sys2Proof.Machine.execRtcRdsec2 s
  | .rtcRdsec3 => Sys2Proof.Machine.execRtcRdsec3 s
  | .rtcRdpram aa => Sys2Proof.Machine.execRtcRdpram aa s
  | .rtcRdpramDead aa => Sys2Proof.Machine.execRtcRdpramDead aa s
  | .rtcXrdsel sector => Sys2Proof.Machine.execRtcXrdsel sector s
  | .rtcRdnop byte => Sys2Proof.Machine.execRtcRdnop byte s
  | .rtcWrcmd code => Sys2Proof.Machine.execRtcWrcmd code s
  | .rtcXrd sector addr => Sys2Proof.Machine.execRtcXrd sector addr s
  | .rtcXwr sector byte => Sys2Proof.Machine.execRtcXwr sector byte s
  | .rtcWrpram aa data => Sys2Proof.Machine.execRtcWrpram aa data s
  | .rtcWrpramDead aa data => Sys2Proof.Machine.execRtcWrpramDead aa data s
  | .rtcWprot protect => Sys2Proof.Machine.execRtcWprot protect s
  | .rtcWrsec0 data => Sys2Proof.Machine.execRtcWrsec0 data s
  | .rtcWrsec1 data => Sys2Proof.Machine.execRtcWrsec1 data s
  | .rtcWrsec2 data => Sys2Proof.Machine.execRtcWrsec2 data s
  | .rtcWrsec3 data => Sys2Proof.Machine.execRtcWrsec3 data s
  | .rtcWrnop cmd data => Sys2Proof.Machine.execRtcWrnop cmd data s
  | .reset => Sys2Proof.Machine.execReset s
  | .advance dt => Sys2Proof.Machine.execAdvance dt s
  | .fireVbl => Sys2Proof.Machine.execFireVbl s
  | .fireSec => Sys2Proof.Machine.execFireSec s
  | .fireAdbpoll => Sys2Proof.Machine.execFireAdbpoll s
  | .tickT1 bank => Sys2Proof.Machine.execTickT1 bank s
  | .tickT2 bank => Sys2Proof.Machine.execTickT2 bank s
  | .extirq bank line level => Sys2Proof.Machine.execExtirq bank line level s

end Sys2Proof.Machine
end

