-- ==== Sys2Proof/Machine/Step.lean ====
section
/-! DEFINITION. One step of the machine: the first stimulus on offer is taken and run to its end
(00_scope R5, 20_memory R70, R71). The block has no program counter and fetches no instruction
(R45); what stands in place of a fetch is the head of `State.pending`. -/

namespace Sys2Proof.Machine

/-- One step. With nothing on offer the block waits and nothing changes; with a stimulus that
stands for no instruction the model has no step (R64, R98). -/
def step (s : State) : Host.Outcome State Fault Refusal :=
  match s.pending with
  | [] => .next s
  | st :: rest =>
    match decodeStimulus st with
    | .ok i => exec i { s with pending := rest }
    | .error why => .refused (.undecodable why)

/-- The state whose next step runs the instruction of a bare word of the opcode table. A word the
table does not have changes nothing. -/
def State.withFetchWord (s : State) (nbits w : Nat) : State :=
  match tableWord nbits w with
  | none => s
  | some (.stimulus st) => s.offer st
  | some (.rtc cmd byte) => s.offerRtc cmd byte

end Sys2Proof.Machine
end

