-- ==== Sys2Proof/Safety.lean ====
section
/-! DEFINITION. The words claims are made in: what an instruction may change, which instructions
are reads, writes and RTC commands, and the invariants of the block that a run keeps. Nothing here
stops a run: the block has no faults (60_exceptions R235). -/

namespace Sys2Proof.Machine

/-! ## Frames -/

/-- From `s` to `t` nothing changed but registers of `bank`: not the other bank, the sequencer,
the PRAM, a deadline, the clock, a parameter, an output or anything on offer. -/
def OnlyBank (bank : BankId) (s t : State) : Prop := t = s.setVia bank (t.via bank)

/-- From `s` to `t` nothing changed but fields of the sequencer. -/
def OnlySequencer (s t : State) : Prop := t = s.setRtc t.rtc

/-- From `s` to `t` nothing changed but fields of the sequencer and the PRAM. -/
def OnlySequencerAndPram (s t : State) : Prop :=
  t = { s.setRtc t.rtc with pram := t.pram }

/-- From `s` to `t` nothing changed but that `bank` was read and the read returned `value`. -/
def ReadReturned (bank : BankId) (value : Byte) (s t : State) : Prop :=
  t = { s with outputs := .readByte bank value :: s.outputs }

/-- The instruction completes: it returns the byte `value` of `bank` to the bus, and changes
nothing else. -/
def Reads (i : Instr) (bank : BankId) (value : Byte) (s : State) : Prop :=
  ∃ t, exec i s = .next t ∧ ReadReturned bank value s t

/-- Every one-byte access to `bank` with the byte `data` whose transaction word has `pattern` under
the mask 0x3E00 stands for the instruction (R82). -/
def EncodedBy (pattern : BitVec 14) (bank : BankId) (data : Byte) (i : Instr) : Prop :=
  ∀ a : BusAccess, a.size = 1 → a.bank = bank → a.data = data →
    a.word &&& 0x3E00 = pattern → decodeBus a = .ok i

/-- Bit `k` of port B of a bank once `data` has been stored under the direction register: the
written bit if it is an output, the old one if it is an input (R23, R111). -/
def storedBit (v : Via) (data : Byte) (k : Nat) : Bool :=
  if v.dirb.getLsbD k then data.getLsbD k else v.b.getLsbD k

/-- The ADB state that a write of `data` to ORB of VIA1 hands to the collaborator (R194). -/
def storedAdbState (v : Via) (data : Byte) : BitVec 2 :=
  BitVec.ofBool (storedBit v data 5) ++ BitVec.ofBool (storedBit v data 4)

/-! ## Kinds of instruction -/

/-- The bank a bus read reads, if the instruction is one. -/
def readBank : Instr → Option BankId
  | .rdOrb b | .rdOrah b | .rdDdrb b | .rdDdra b | .rdT1cl b | .rdT1ch b | .rdT1ll b
  | .rdT1lh b | .rdT2cl b | .rdT2ch b | .rdSr b | .rdAcr b | .rdPcr b | .rdIfr b | .rdIer b
  | .rdOra b => some b
  | _ => none

/-- The bank a bus write writes, if the instruction is one. -/
def writeBank : Instr → Option BankId
  | .wrOrb b _ | .wrOrah b _ | .wrDdrb b _ | .wrDdra b _ | .wrT1cl b _ | .wrT1ch b _
  | .wrT1ll b _ | .wrT1lh b _ | .wrT2cl b _ | .wrT2ch b _ | .wrSr b _ | .wrAcr b _
  | .wrPcr b _ | .wrIfr b _ | .wrIer b _ | .wrOra b _ => some b
  | _ => none

/-- The instruction is a row of format RTC. -/
def isRtc : Instr → Bool
  | .rtcRdsec0 | .rtcRdsec1 | .rtcRdsec2 | .rtcRdsec3 | .rtcRdpram _ | .rtcRdpramDead _
  | .rtcXrdsel _ | .rtcRdnop _ | .rtcWrcmd _ | .rtcXrd _ _ | .rtcXwr _ _ | .rtcWrpram _ _
  | .rtcWrpramDead _ _ | .rtcWprot _ | .rtcWrsec0 _ | .rtcWrsec1 _ | .rtcWrsec2 _
  | .rtcWrsec3 _ | .rtcWrnop _ _ => true
  | _ => false

/-- The instruction is one of those R239 names as setting or clearing an interrupt flag: a write of
IFR, a fan-in step, a tick of a counter, a firing of a timer that has a flag, a reset. -/
def mayChangeFlags : Instr → Bool
  | .wrIfr _ _ | .extirq _ _ _ | .tickT1 _ | .tickT2 _ | .fireVbl | .fireSec | .reset => true
  | _ => false

/-! ## The invariants of the block -/

/-- The sequencer's fields stay in the ranges of R36 and R37: fewer than eight bits are assembled
between steps and `dataOut` holds no more than those; at most eight are queued and they stand at
the top of `dataIn`; a pending `cmd` with bit 7 set is an extended read designator (R93); an
addressing byte is latched only for an extended write (R159). -/
def Rtc.inRange (r : Rtc) : Prop :=
  r.dataOutCount < 8 ∧ r.dataOut.toNat < 2 ^ r.dataOutCount ∧
  r.dataInCount ≤ 8 ∧ r.dataIn.toNat % 2 ^ (8 - r.dataInCount) = 0 ∧
  (r.cmd.getLsbD 7 = true → r.cmd &&& 0xF8 = 0xB8) ∧
  (r.alt ≠ 0x00 → r.cmd &&& 0xF8 = 0x38)

/-- A deadline is a point of its timer's grid and no later than the next one (R206, R211). -/
def deadlineOk (now period next : Nat) : Prop :=
  period ∣ next ∧ next ≤ nextDeadline now period

/-- `lastPortB` and port B of VIA1 agree in every bit but the ADB-interrupt bit, which a poll may
clear without a write of ORB (R157, R196). -/
def State.portBRemembered (s : State) : Prop :=
  ∀ k, k ≠ 3 → s.rtc.lastPortB.getLsbD k = s.via1.b.getLsbD k

/-- The invariant of the block: the PRAM in its canonical form, the sequencer in its ranges, the
remembered port, the three deadlines on their grids. -/
def State.Inv (s : State) : Prop :=
  Memory.wf s.pram = true ∧ s.rtc.inRange ∧ s.portBRemembered ∧
  deadlineOk s.now Config.periodVbl s.nextVbl ∧
  deadlineOk s.now Config.periodSec s.nextSec ∧
  deadlineOk s.now Config.periodAdbpoll s.nextAdb

/-! ## The RTC serial line, as software drives it -/

/-- A write of `data` to ORB of VIA1 (R66). -/
def orb1Write (data : Byte) : Stimulus := .bus ⟨.via1, true, 0x0000, 1, data⟩

/-- The two writes that send bit `v`: data with the clock low, then with the clock high. `u` holds
the other output bits of port B (R85, R101). -/
def sendBit (u : Byte) (v : Bool) : List Stimulus :=
  [orb1Write (u ||| BitVec.zeroExtend 8 (BitVec.ofBool v)),
   orb1Write (u ||| Config.rtcClkMask ||| BitVec.zeroExtend 8 (BitVec.ofBool v))]

/-- `RTC.SEND u, #byte`: the sixteen writes that send a byte, most significant bit first (R101). -/
def sendByte (u byte : Byte) : List Stimulus :=
  sendBit u (byte.getLsbD 7) ++ sendBit u (byte.getLsbD 6) ++ sendBit u (byte.getLsbD 5) ++
  sendBit u (byte.getLsbD 4) ++ sendBit u (byte.getLsbD 3) ++ sendBit u (byte.getLsbD 2) ++
  sendBit u (byte.getLsbD 1) ++ sendBit u (byte.getLsbD 0)

/-- A counter tick of a bank taken `n` times in a row. -/
def ticks (tick : Via → Via) : Nat → Via → Via
  | 0, v => v
  | n + 1, v => ticks tick n (tick v)

end Sys2Proof.Machine
end

