-- ==== Sys2Proof/Certificates/Slice0/Obligations.lean ====
section
/-! DEFINITION. The statements for the provers, taken from the numbered rules of the spec. Each one
holds for every value of the OPEN parameters, of the ADB collaborator's answers and of the PRAM,
since a state holds them and the statements are about every state.

The docstrings name the decisions of 92_eei_decisions.md that a statement rests on. In the
assumption log D21, D22 and D28 are entry 8 (which also fixes the values of D10, D11, D16, D17 and
D18); D3 is entry 9, D4 entry 10, D32 entry 17, D36 entry 18, D37 entry 23; D31 is entries 2, 3, 4
and 20; D1, D9, D10, D11, D15, D17, D34 and the ACR bits of D16 are entry 21; every other, and the
plain storage of D16, is entry 22. -/

open Sys2Proof Sys2Proof.Machine

/-! ## Encodings -/

/-- Decoding the canonical encoding of any well-formed instruction gives it back (R82, R91 to R94,
R98). The write patterns of R94 are the spec's decision D20, the event codes its decision D2. -/
def Obligations.DecodeReadsBackEveryEncoding : Prop :=
  ∀ i : Instr, i.wellFormed = true → decode (encode i) = .ok i

/-- The table of R82 is total: a one-byte access decodes, to a read or a write of the bank it names
as its direction says. -/
def Obligations.EveryOneByteAccessDecodes : Prop :=
  ∀ a : BusAccess, a.size = 1 →
    ∃ i, decodeBus a = .ok i ∧ i.wellFormed = true ∧
      readBank i = (if a.write then none else some a.bank) ∧
      writeBank i = (if a.write then some a.bank else none)

/-- Register `k` of a bank stands at offset `k * 0x200` and is the k-th of the list of R22 (R66), and
with two separate windows (R63) the absolute address `VIA1_BASE + k * 0x200` or `VIA2_BASE + k *
0x200` reaches it wherever the windows stand. The order of the registers is the spec's decision D1,
the OPEN bases and the length of a window its decision D3. That at a base which is no multiple of
0x2000 the offset selects the register, and not the absolute address, is the model's choice (DEDUCED,
log entry 9); at a multiple the absolute address decodes alike, as R61 says. -/
def Obligations.OffsetSelectsTheRegister : Prop :=
  ∀ (bank : BankId) (data : Byte) (k : Nat) (rd wr : Instr),
    [Instr.rdOrb bank, .rdOrah bank, .rdDdrb bank, .rdDdra bank, .rdT1cl bank, .rdT1ch bank,
      .rdT1ll bank, .rdT1lh bank, .rdT2cl bank, .rdT2ch bank, .rdSr bank, .rdAcr bank,
      .rdPcr bank, .rdIfr bank, .rdIer bank, .rdOra bank][k]? = some rd →
    [Instr.wrOrb bank data, .wrOrah bank data, .wrDdrb bank data, .wrDdra bank data,
      .wrT1cl bank data, .wrT1ch bank data, .wrT1ll bank data, .wrT1lh bank data,
      .wrT2cl bank data, .wrT2ch bank data, .wrSr bank data, .wrAcr bank data,
      .wrPcr bank data, .wrIfr bank data, .wrIer bank data, .wrOra bank data][k]? = some wr →
    decodeBus ⟨bank, false, k * 0x200, 1, data⟩ = .ok rd ∧
      decodeBus ⟨bank, true, k * 0x200, 1, data⟩ = .ok wr ∧
      ∀ p : Params,
        p.via1Base + 0x2000 ≤ p.via2Base ∨ p.via2Base + 0x2000 ≤ p.via1Base →
        ∃ a b, accessAt p false (windowBase p bank + k * 0x200) 1 data = some a ∧
          decodeBus a = .ok rd ∧
          accessAt p true (windowBase p bank + k * 0x200) 1 data = some b ∧
          decodeBus b = .ok wr ∧
          (windowBase p bank % 0x2000 = 0 →
            decodeBus ⟨bank, false, windowBase p bank + k * 0x200, 1, data⟩ = .ok rd ∧
            decodeBus ⟨bank, true, windowBase p bank + k * 0x200, 1, data⟩ = .ok wr)

/-- The index `(addr >> 9) & 0xF` of a raw address, and nothing else of the address, selects the
register: two reads of a bank, or two writes of one byte to it, decode to the same instruction
exactly when their addresses have the same index (R61). So no address bit below 9 or above 12 takes
part. -/
def Obligations.OnlyAddressBits12To9AreDecoded : Prop :=
  ∀ (bank : BankId) (write : Bool) (data : Byte) (addr addr' : Nat),
    decodeBus ⟨bank, write, addr, 1, data⟩ = decodeBus ⟨bank, write, addr', 1, data⟩ ↔
      (addr >>> 9) &&& 0xF = (addr' >>> 9) &&& 0xF

/-- An access of any width but one byte, at whatever address, names no instruction and has no step:
it is refused (R64). The refusal is the spec's decision D4. -/
def Obligations.WideAccessIsRefused : Prop :=
  ∀ (s : State) (a : BusAccess) (rest : List Stimulus),
    a.size ≠ 1 →
    decodeBus a = .error (.wideAccess a.size) ∧
    (s.pending = .bus a :: rest → step s = .refused (.undecodable (.wideAccess a.size)))

/-- The sixteen event codes: 0..7 name the eight events, each with its own operands, and 8..15 name
none (R98). The codes are the spec's decision D2. -/
def Obligations.EventCodesDecode : Prop :=
  ∀ (dt : Nat) (bank : BankId) (line : BitVec 3) (level : Bool),
    decodeEvent ⟨0, dt, bank, line, level⟩ = .ok .reset ∧
    decodeEvent ⟨1, dt, bank, line, level⟩ = .ok (.advance dt) ∧
    decodeEvent ⟨2, dt, bank, line, level⟩ = .ok .fireVbl ∧
    decodeEvent ⟨3, dt, bank, line, level⟩ = .ok .fireSec ∧
    decodeEvent ⟨4, dt, bank, line, level⟩ = .ok .fireAdbpoll ∧
    decodeEvent ⟨5, dt, bank, line, level⟩ = .ok (.tickT1 bank) ∧
    decodeEvent ⟨6, dt, bank, line, level⟩ = .ok (.tickT2 bank) ∧
    decodeEvent ⟨7, dt, bank, line, level⟩ = .ok (.extirq bank line level) ∧
    ∀ code : BitVec 4, 8 ≤ code.toNat →
      decodeEvent ⟨code, dt, bank, line, level⟩ = .error (.unassignedEvent code)

/-- A completed byte is decoded in the context `RTC.cmd` makes (R90), and each context gives its own
rows: FIRST with bit 7 set those of R91, with bit 7 clear that of R92, XREAD that of R93, WDATA
those of R94, by the pending command alone and for every data byte. No byte stands for one of the
two dead rows (R166). The write patterns of R94 are the spec's decision D20. -/
def Obligations.RtcByteDecodesInItsContext : Prop :=
  ∀ cmd byte : Byte,
    (cmd = 0x00 → byte.getLsbD 7 = false →
      ∃ code : BitVec 7, decodeRtc cmd byte = .rtcWrcmd code ∧ code.toNat = byte.toNat) ∧
    (cmd = 0x00 → byte.getLsbD 7 = true →
      (byte = 0x81 → decodeRtc cmd byte = .rtcRdsec0) ∧
      (byte = 0x85 → decodeRtc cmd byte = .rtcRdsec1) ∧
      (byte = 0x89 → decodeRtc cmd byte = .rtcRdsec2) ∧
      (byte = 0x8D → decodeRtc cmd byte = .rtcRdsec3) ∧
      (byte ∈ [0xA1, 0xA5, 0xA9, 0xAD] →
        ∃ aa : BitVec 2, decodeRtc cmd byte = .rtcRdpram aa ∧ aa.toNat = byte.toNat / 4 % 4) ∧
      (0xB8 ≤ byte.toNat ∧ byte.toNat ≤ 0xBF →
        ∃ sector : BitVec 3, decodeRtc cmd byte = .rtcXrdsel sector ∧
          sector.toNat = byte.toNat % 8) ∧
      (byte ∉ [0x81, 0x85, 0x89, 0x8D, 0xA1, 0xA5, 0xA9, 0xAD] →
        ¬(0xB8 ≤ byte.toNat ∧ byte.toNat ≤ 0xBF) → decodeRtc cmd byte = .rtcRdnop byte)) ∧
    (cmd.getLsbD 7 = true →
      ∃ sector addr, decodeRtc cmd byte = .rtcXrd sector addr ∧
        sector.toNat = cmd.toNat % 8 ∧ addr.toNat = byte.toNat / 4 % 32) ∧
    (cmd ≠ 0x00 → cmd.getLsbD 7 = false →
      (0x38 ≤ cmd.toNat ∧ cmd.toNat ≤ 0x3F →
        ∃ sector : BitVec 3, decodeRtc cmd byte = .rtcXwr sector byte ∧
          sector.toNat = cmd.toNat % 8) ∧
      (cmd ∈ [0x21, 0x25, 0x29, 0x2D] →
        ∃ aa : BitVec 2, decodeRtc cmd byte = .rtcWrpram aa byte ∧ aa.toNat = cmd.toNat / 4 % 4) ∧
      (cmd = 0x35 → decodeRtc cmd byte = .rtcWprot (byte.getLsbD 0)) ∧
      (cmd = 0x01 → decodeRtc cmd byte = .rtcWrsec0 byte) ∧
      (cmd = 0x05 → decodeRtc cmd byte = .rtcWrsec1 byte) ∧
      (cmd = 0x09 → decodeRtc cmd byte = .rtcWrsec2 byte) ∧
      (cmd = 0x0D → decodeRtc cmd byte = .rtcWrsec3 byte) ∧
      (cmd ∉ [0x21, 0x25, 0x29, 0x2D, 0x35, 0x01, 0x05, 0x09, 0x0D] →
        ¬(0x38 ≤ cmd.toNat ∧ cmd.toNat ≤ 0x3F) → decodeRtc cmd byte = .rtcWrnop cmd byte)) ∧
    (decodeRtc cmd byte).wellFormed = true ∧ isRtc (decodeRtc cmd byte) = true

/-- Words written out from the spec's encodings decode to the instructions they stand for (TV11,
TV14, TV15, TV70, TV71; R82, R91, R93, R94, R98). The order of the registers, the event codes and
the write patterns (pending 0x25, 0x35 and 0x3A) are the spec's decisions D1, D2 and D20. The
model's choice (log entry 7): a bare word of more than 8 bits is an access to VIA1 with data 0x00,
an 8-bit word below 8 an event code. -/
def Obligations.SpecWordsDecode : Prop :=
  decodeTableWord 16 0x3BFF = some (.wrIfr .via1 0x00) ∧
  decodeTableWord 16 0x3C00 = some (.wrIer .via1 0x00) ∧
  decodeTableWord 16 0x01FF = some (.rdOrb .via1) ∧
  decodeRtc 0x00 0xA5 = .rtcRdpram 1 ∧
  decodeRtc 0x25 0x42 = .rtcWrpram 1 0x42 ∧
  decodeRtc 0x00 0xBA = .rtcXrdsel 2 ∧
  decodeRtc 0xBA 0x14 = .rtcXrd 2 5 ∧
  decodeRtc 0x3A 0x77 = .rtcXwr 2 0x77 ∧
  decodeRtc 0x35 0xFE = .rtcWprot false ∧
  decodeTableWord 8 0x06 = some (.tickT2 .via1)

/-! ## The step -/

/-- A step takes the first stimulus on offer and is the meaning of what it decodes to, at the state
from which that stimulus has been taken; with nothing on offer nothing changes (R5, R70, R71). The
list of what is on offer is the model's own (log entry 1). -/
def Obligations.StepRunsTheOfferedStimulus : Prop :=
  ∀ (s : State),
    (s.pending = [] → step s = .next s) ∧
    (∀ (st : Stimulus) (rest : List Stimulus) (i : Instr), s.pending = st :: rest →
      decodeStimulus st = .ok i → step s = exec i { s with pending := rest }) ∧
    (∀ (st : Stimulus) (i : Instr), decodeStimulus st = .ok i → step (s.offer st) = exec i s)

/-- In the state `offerRtc` makes, the next step completes the byte and runs the command it stands
for: PRAM and the command fields of the sequencer end as that command's own meaning leaves them
(R85, R156, R158). The state `offerRtc` makes is the model's choice (log entry 1). The rising edge
and the bit order are the spec's decision D19, the pins its decision D17. -/
def Obligations.EighthBitRunsTheCommand : Prop :=
  ∀ (s : State) (cmd byte : Byte),
    ∃ t u, step (s.offerRtc cmd byte) = .next t ∧
      exec (decodeRtc cmd byte) { s with rtc := { s.rtc with cmd := cmd } } = .next u ∧
      t.pram = u.pram ∧
      t.rtc = { u.rtc with dataOut := 0x00, dataOutCount := 0, lastPortB := t.via1.b } ∧
      t.pending = s.pending

/-- Every instruction completes in every state: nothing faults, nothing waits and nothing is refused
(R99, R235). None of them changes a parameter, where a summary line goes or the seconds bias (R39,
R43), takes anything from what is on offer, or turns the clock back, and only ADVANCE moves the
clock (R41). For a firing before its deadline this is the model's choice (log entry 6). -/
def Obligations.EveryInstructionCompletes : Prop :=
  ∀ (i : Instr) (s : State),
    ∃ t, exec i s = .next t ∧ t.params = s.params ∧ t.lines = s.lines ∧
      t.rtc.tickOffset = s.rtc.tickOffset ∧ t.pending = s.pending ∧
      s.now ≤ t.now ∧ ((∀ dt, i ≠ .advance dt) → t.now = s.now)

/-! ## Bus reads -/

/-- Reads of the ports and directions return the stored byte whole, a read of the unused register
the OPEN `UNUSED_READ`, and none changes anything (R110, R112, R114, R116, R140). The spec's
decisions D5 and D8. -/
def Obligations.PortReadsReturnTheStoredByte : Prop :=
  ∀ (bank : BankId) (s : State),
    Reads (.rdOrb bank) bank (s.via bank).b s ∧
    Reads (.rdOrah bank) bank s.params.unusedRead s ∧
    Reads (.rdDdrb bank) bank (s.via bank).dirb s ∧
    Reads (.rdDdra bank) bank (s.via bank).dira s ∧
    Reads (.rdOra bank) bank (s.via bank).a s

/-- Reads of the timer registers return the low or the high byte of the counter or of the timer 1
latch and clear no flag (R118, R120, R122, R124, R126, R128). Which register reads which byte is the
spec's decisions D9 and D34; that no flag is cleared, D12. -/
def Obligations.TimerReadsReturnOneByteOfTheCount : Prop :=
  ∀ (bank : BankId) (s : State),
    Reads (.rdT1cl bank) bank (BitVec.ofNat 8 (s.via bank).t1c.toNat) s ∧
    Reads (.rdT1ch bank) bank (BitVec.ofNat 8 ((s.via bank).t1c.toNat / 256)) s ∧
    Reads (.rdT1ll bank) bank (BitVec.ofNat 8 (s.via bank).t1l.toNat) s ∧
    Reads (.rdT1lh bank) bank (BitVec.ofNat 8 ((s.via bank).t1l.toNat / 256)) s ∧
    Reads (.rdT2cl bank) bank (BitVec.ofNat 8 (s.via bank).t2c.toNat) s ∧
    Reads (.rdT2ch bank) bank (BitVec.ofNat 8 ((s.via bank).t2c.toNat / 256)) s

/-- Reads of SR, ACR and PCR return the stored byte; IFR returns the flags with the summary in bit
7, IER the enables with the OPEN `IER_READ_BIT7` there (R130, R132, R134, R136, R138). The spec's
decisions D14, D15 and D16. -/
def Obligations.ControlReadsReturnTheRegister : Prop :=
  ∀ (bank : BankId) (s : State),
    Reads (.rdSr bank) bank (s.via bank).sr s ∧
    Reads (.rdAcr bank) bank (s.via bank).acr s ∧
    Reads (.rdPcr bank) bank (s.via bank).pcr s ∧
    Reads (.rdIfr bank) bank
      (BitVec.ofNat 8 ((if (s.via bank).ifr &&& (s.via bank).ier = 0 then 0 else 128)
        + (s.via bank).ifr.toNat)) s ∧
    Reads (.rdIer bank) bank
      (BitVec.ofNat 8 ((if s.params.ierReadBit7 then 128 else 0)
        + (s.via bank).ier.toNat)) s

/-! ## Bus writes -/

/-- Writes of DDRB, DDRA, ACR and PCR, on either bank, store the byte whole and do nothing else: no
port byte changes, no hook runs, no transfer starts (R117, R135; of R115 and R133 what the write
itself does). That ACR and PCR are plain storage is the spec's decision D16 (log entry 22); at which
address each register stands and how an access is packaged are its decisions D1 (log entry 21) and
D2 (log entry 22). -/
def Obligations.DirectionAndControlWritesOnlyStore : Prop :=
  ∀ (bank : BankId) (data : Byte) (s : State),
    EncodedBy 0x2400 bank data (.wrDdrb bank data) ∧
    exec (.wrDdrb bank data) s = .next (s.setVia bank { s.via bank with dirb := data }) ∧
    EncodedBy 0x2600 bank data (.wrDdra bank data) ∧
    exec (.wrDdra bank data) s = .next (s.setVia bank { s.via bank with dira := data }) ∧
    EncodedBy 0x3600 bank data (.wrAcr bank data) ∧
    exec (.wrAcr bank data) s = .next (s.setVia bank { s.via bank with acr := data }) ∧
    EncodedBy 0x3800 bank data (.wrPcr bank data) ∧
    exec (.wrPcr bank data) s = .next (s.setVia bank { s.via bank with pcr := data })

/-- Writes of T2CL and SR store the byte and do nothing else, and a write of the unused register
does nothing at all (R127, R131, R113): the spec's decisions D9, D16 and D8. -/
def Obligations.LatchAndShiftWritesOnlyStore : Prop :=
  ∀ (bank : BankId) (data : Byte) (s : State),
    exec (.wrOrah bank data) s = .next s ∧
    exec (.wrT2cl bank data) s = .next (s.setVia bank { s.via bank with t2ll := data }) ∧
    exec (.wrSr bank data) s = .next (s.setVia bank { s.via bank with sr := data })

/-- A write of port A: the output bits take the written value, the input bits and all else keep
theirs (R141). The mask is the spec's decision D5. -/
def Obligations.WriteOfPortAIsMasked : Prop :=
  ∀ (bank : BankId) (data : Byte) (s : State),
    ∃ t, exec (.wrOra bank data) s = .next t ∧ OnlyBank bank s t ∧
      t.via bank = { s.via bank with a := (t.via bank).a } ∧
      ∀ k, (t.via bank).a.getLsbD k =
        if (s.via bank).dira.getLsbD k then data.getLsbD k else (s.via bank).a.getLsbD k

/-- A write of port B of VIA2 is masked, then asks for a shutdown exactly when bit 2 is an output
and now low; nothing else changes. A write of its direction register never asks (R224). The mask,
and the bank and the moment of the check, are the spec's decisions D5 and D18. -/
def Obligations.WriteOfPortBOfVia2ChecksThePowerBit : Prop :=
  ∀ (data : Byte) (s : State),
    (∃ t, exec (.wrOrb .via2 data) s = .next t ∧
      t = { s with via2 := { s.via2 with b := t.via2.b }, outputs := t.outputs } ∧
      (∀ k, t.via2.b.getLsbD k = storedBit s.via2 data k) ∧
      t.outputs = if s.via2.dirb.getLsbD 2 = true ∧ t.via2.b.getLsbD 2 = false
        then .shutdownRequest :: s.outputs else s.outputs) ∧
    ∃ t, exec (.wrDdrb .via2 data) s = .next t ∧ t.outputs = s.outputs

/-- Writes of T1CL, T1LL and T1LH replace one byte of the timer 1 latch and neither load nor arm the
counter (R119, R123, R125). The spec's decisions D9 and D34. -/
def Obligations.LatchWritesReplaceOneByte : Prop :=
  ∀ (bank : BankId) (data : Byte) (s : State),
    (∃ l : Count, exec (.wrT1cl bank data) s =
        .next (s.setVia bank { s.via bank with t1l := l }) ∧
      l.toNat = (s.via bank).t1l.toNat / 256 * 256 + data.toNat) ∧
    (∃ l : Count, exec (.wrT1ll bank data) s =
        .next (s.setVia bank { s.via bank with t1l := l }) ∧
      l.toNat = (s.via bank).t1l.toNat / 256 * 256 + data.toNat) ∧
    (∃ l : Count, exec (.wrT1lh bank data) s =
        .next (s.setVia bank { s.via bank with t1l := l }) ∧
      l.toNat = data.toNat * 256 + (s.via bank).t1l.toNat % 256)

/-- A write of T1CH completes the latch, loads the counter from it and arms timer 1; a write of T2CH
loads timer 2 from the byte and the hidden latch and arms it; neither clears a flag (R121, R129).
The spec's decisions D9 and D34; that no flag is cleared, D12. -/
def Obligations.HighByteWritesLoadAndArm : Prop :=
  ∀ (bank : BankId) (data : Byte) (s : State),
    (∃ l : Count, exec (.wrT1ch bank data) s =
        .next (s.setVia bank { s.via bank with t1l := l, t1c := l, t1armed := true }) ∧
      l.toNat = data.toNat * 256 + (s.via bank).t1l.toNat % 256) ∧
    (∃ c : Count, exec (.wrT2ch bank data) s =
        .next (s.setVia bank { s.via bank with t2c := c, t2armed := true }) ∧
      c.toNat = data.toNat * 256 + (s.via bank).t2ll.toNat)

/-- A write of IFR with bit 7 set clears exactly the flags named; with bit 7 clear it changes
nothing (R137). That bit 7 clear changes nothing is the spec's decision D13. -/
def Obligations.AcknowledgeClearsTheNamedFlags : Prop :=
  ∀ (bank : BankId) (data : Byte) (s : State),
    ∃ t, exec (.wrIfr bank data) s = .next t ∧ OnlyBank bank s t ∧
      t.via bank = { s.via bank with ifr := (t.via bank).ifr } ∧
      (data.getLsbD 7 = false → t = s) ∧
      (data.getLsbD 7 = true → ∀ k, k < 7 →
        (t.via bank).ifr.getLsbD k = ((s.via bank).ifr.getLsbD k && !data.getLsbD k))

/-- A write of IER sets the enables named when bit 7 is set and clears them when it is clear; the
others are untouched (R139). The spec's decision D15. -/
def Obligations.EnableWritesSetOrClearTheNamedEnables : Prop :=
  ∀ (bank : BankId) (data : Byte) (s : State),
    ∃ t, exec (.wrIer bank data) s = .next t ∧ OnlyBank bank s t ∧
      t.via bank = { s.via bank with ier := (t.via bank).ier } ∧
      ∀ k, k < 7 → (t.via bank).ier.getLsbD k =
        if data.getLsbD k then data.getLsbD 7 else (s.via bank).ier.getLsbD k

/-- The summary line of a bank is high exactly when some flag is pending and enabled (R238). That it
is a function of the state is also the spec's decision D32. -/
def Obligations.SummaryLineIsAnEnabledPendingFlag : Prop :=
  ∀ (s : State) (bank : BankId),
    s.irq bank = true ↔
      ∃ k, k < 7 ∧ (s.via bank).ifr.getLsbD k = true ∧ (s.via bank).ier.getLsbD k = true

/-- No instruction but a write of IFR, a fan-in step, a counter tick, a firing of a timer that has a
flag and a reset changes a flag: no read, no port, shift-register or timer access, no RTC command,
no ADB transfer or poll (R30, R68, R241). No instruction but a write of IER and a reset changes an
enable, so no other moves the summary line (R143, R246). What it says beyond R30, of the shift
register and the ADB, rests on the spec's decisions D12 and D32. -/
def Obligations.FlagsAndEnablesChangeOnlyWhereNamed : Prop :=
  ∀ (i : Instr) (s t : State) (bank : BankId), exec i s = .next t →
    (mayChangeFlags i = false → (t.via bank).ifr = (s.via bank).ifr) ∧
    ((∀ b d, i ≠ .wrIer b d) → i ≠ .reset → (t.via bank).ier = (s.via bank).ier) ∧
    (mayChangeFlags i = false → (∀ b d, i ≠ .wrIer b d) → t.irq bank = s.irq bank)

/-- Every bus write but the one of ORB of VIA1 is idempotent: done a second time it leaves the state
of the block as the first left it (R69); on ORB of VIA2 the second may emit a second request. -/
def Obligations.OtherBusWritesAreIdempotent : Prop :=
  ∀ (i : Instr) (bank : BankId) (s t : State), writeBank i = some bank →
    (∀ d, i ≠ .wrOrb .via1 d) → exec i s = .next t →
    ∃ u, exec i t = .next u ∧ u = { t with outputs := u.outputs } ∧
      ((∀ d, i ≠ .wrOrb .via2 d) → u = t)

/-- What is given to one bank never changes a register of the other (R21, R142). -/
def Obligations.BanksDoNotAlias : Prop :=
  ∀ (i : Instr) (bank other : BankId) (s t : State),
    (readBank i = some bank ∨ writeBank i = some bank ∨ i = .tickT1 bank ∨ i = .tickT2 bank ∨
      ∃ line level, i = .extirq bank line level) →
    other ≠ bank → exec i s = .next t → t.via other = s.via other

/-! ## A write of port B of VIA1 -/

/-- Every write of ORB of VIA1 completes; it stores under the direction register, makes one call of
the ADB collaborator, remembers the port, and changes no more than bits 0 and 3 beside the stored
ones, the shift register, the sequencer and the PRAM (R111, R157, R191). The mask, the hook on every
write and its order are the spec's decisions D5, D6 and D7, bits 0 and 3 its decision D17. -/
def Obligations.WriteOfPortBOfVia1StoresAndCallsOnce : Prop :=
  ∀ (data : Byte) (s : State),
    ∃ t call, exec (.wrOrb .via1 data) s = .next t ∧
      (∀ k, k ≠ 0 → k ≠ 3 → t.via1.b.getLsbD k = storedBit s.via1 data k) ∧
      (s.via1.dirb.getLsbD 0 = true → t.via1.b.getLsbD 0 = data.getLsbD 0) ∧
      t.rtc.lastPortB = t.via1.b ∧ t.rtc.tickOffset = s.rtc.tickOffset ∧
      t = { s with
        via1 := { s.via1 with b := t.via1.b, sr := t.via1.sr }
        rtc := t.rtc
        pram := t.pram
        adbScript := s.adbScript.tail
        adbCalls := s.adbCalls + 1
        outputs := .adbCall call :: s.outputs }

/-- While the enable bit of the stored port is 1 no field of the sequencer changes but the
remembered port, no PRAM byte does, and the data pin keeps the bit stored, whatever its direction and
whatever the clock does (R151, R180). That the remembered port is updated all the same is the spec's
decision D7 (R157), the masked store its decision D5, the pins its decision D17. -/
def Obligations.DeselectedSequencerKeepsItsState : Prop :=
  ∀ (data : Byte) (s : State), storedBit s.via1 data 2 = true →
    ∃ t, exec (.wrOrb .via1 data) s = .next t ∧ t.pram = s.pram ∧
      t.rtc = { s.rtc with lastPortB := t.via1.b } ∧
      t.via1.b.getLsbD 0 = storedBit s.via1 data 0

/-- A write of ORB of VIA1 that leaves the clock bit as the previous one left it moves no bit in
either direction (R85, R152). The edges are the spec's decision D19, the pins its decision D17. -/
def Obligations.NoClockEdgeMovesNoBit : Prop :=
  ∀ (data : Byte) (s : State), s.rtc.dataOutCount < 8 →
    storedBit s.via1 data 1 = s.rtc.lastPortB.getLsbD 1 →
    ∃ t, exec (.wrOrb .via1 data) s = .next t ∧ t.pram = s.pram ∧
      t.rtc = { s.rtc with lastPortB := t.via1.b } ∧
      t.via1.b.getLsbD 0 = storedBit s.via1 data 0

/-- Selected, with the data pin an output: a rising edge with fewer than seven bits in shifts the
written bit into `dataOut` and counts it; a falling edge, or no edge, does nothing, with seven bits
in too (R154). The edge is the spec's decision D19, the pins its decision D17. The eighth rising
edge is the next statement's. -/
def Obligations.RisingEdgeTakesAHostBit : Prop :=
  ∀ (data : Byte) (s : State), storedBit s.via1 data 2 = false →
    s.via1.dirb.getLsbD 0 = true →
    (s.rtc.dataOutCount < 7 →
      s.rtc.lastPortB.getLsbD 1 = false → storedBit s.via1 data 1 = true →
      ∃ (t : State) (d : Byte), exec (.wrOrb .via1 data) s = .next t ∧ t.pram = s.pram ∧
        d.toNat = 2 * s.rtc.dataOut.toNat % 256 + (data.getLsbD 0).toNat ∧
        t.rtc = { s.rtc with
          dataOut := d, dataOutCount := s.rtc.dataOutCount + 1, lastPortB := t.via1.b }) ∧
    (s.rtc.dataOutCount < 8 →
      s.rtc.lastPortB.getLsbD 1 = true ∨ storedBit s.via1 data 1 = false →
      ∃ t, exec (.wrOrb .via1 data) s = .next t ∧ t.pram = s.pram ∧
        t.rtc = { s.rtc with lastPortB := t.via1.b })

/-- The eighth rising edge dispatches the byte assembled, in the context of the pending command:
PRAM and the command fields end as that command's meaning leaves them, and the assembly starts again
from nothing (R156, R158). The edge is the spec's decision D19, the pins its decision D17. -/
def Obligations.EighthRisingEdgeDispatches : Prop :=
  ∀ (data : Byte) (s : State), storedBit s.via1 data 2 = false →
    s.via1.dirb.getLsbD 0 = true → s.rtc.dataOutCount = 7 →
    s.rtc.lastPortB.getLsbD 1 = false → storedBit s.via1 data 1 = true →
    ∃ (t u : State) (byte : Byte), exec (.wrOrb .via1 data) s = .next t ∧
      byte.toNat = 2 * s.rtc.dataOut.toNat % 256 + (data.getLsbD 0).toNat ∧
      exec (decodeRtc s.rtc.cmd byte) s = .next u ∧ t.pram = u.pram ∧
      t.rtc = { u.rtc with dataOut := 0x00, dataOutCount := 0, lastPortB := t.via1.b }

/-- Selected, with the data pin an input: a falling edge puts the top bit of `dataIn` into bit 0 of
the port and shifts, if a bit is queued, and changes nothing if none is; a rising edge moves nothing
(R155). The spec's decision D19; the pins are its decision D17. -/
def Obligations.FallingEdgePresentsAChipBit : Prop :=
  ∀ (data : Byte) (s : State), storedBit s.via1 data 2 = false →
    s.via1.dirb.getLsbD 0 = false → s.rtc.dataOutCount < 8 →
    (s.rtc.lastPortB.getLsbD 1 = true → storedBit s.via1 data 1 = false →
      0 < s.rtc.dataInCount →
      ∃ (t : State) (d : Byte), exec (.wrOrb .via1 data) s = .next t ∧ t.pram = s.pram ∧
        t.via1.b.getLsbD 0 = s.rtc.dataIn.getLsbD 7 ∧ d.toNat = 2 * s.rtc.dataIn.toNat % 256 ∧
        t.rtc = { s.rtc with
          dataIn := d, dataInCount := s.rtc.dataInCount - 1, lastPortB := t.via1.b }) ∧
    (s.rtc.lastPortB.getLsbD 1 = true → storedBit s.via1 data 1 = false →
      s.rtc.dataInCount = 0 →
      ∃ t, exec (.wrOrb .via1 data) s = .next t ∧ t.pram = s.pram ∧
        t.via1.b.getLsbD 0 = s.via1.b.getLsbD 0 ∧
        t.rtc = { s.rtc with lastPortB := t.via1.b }) ∧
    (s.rtc.lastPortB.getLsbD 1 = false → storedBit s.via1 data 1 = true →
      ∃ t, exec (.wrOrb .via1 data) s = .next t ∧ t.pram = s.pram ∧
        t.via1.b.getLsbD 0 = s.via1.b.getLsbD 0 ∧
        t.rtc = { s.rtc with lastPortB := t.via1.b })

/-- With the shift register configured for output, the write hands the stored state and `sr` to
`send`; a positive answer clears bit 3 of the port, any other sets it; the other bits of the port
stay as the store and the RTC step left them, `sr` and the flags as they were (R192). A call in
every write is the spec's decision D6; the state taken after the store and bit 3 written whatever
its direction (R194, R195) its decision D27; the bits of ACR and of the port its decisions D16 and
D17. -/
def Obligations.ShiftOutSendsTheByte : Prop :=
  ∀ (data : Byte) (s : State), s.via1.acr.getLsbD 4 = true →
    ∃ t, exec (.wrOrb .via1 data) s = .next t ∧
      t.outputs = .adbCall (.send (storedAdbState s.via1 data) s.via1.sr) :: s.outputs ∧
      t.via1.sr = s.via1.sr ∧ t.via1.ifr = s.via1.ifr ∧
      (∀ k, k ≠ 3 → t.via1.b.getLsbD k = (s.storePortB .via1 data).rtcStep.via1.b.getLsbD k) ∧
      (t.via1.b.getLsbD 3 = false ↔
        0 < (s.adbReply (.send (storedAdbState s.via1 data) s.via1.sr)).ret)

/-- With the shift register configured for input, the write asks `receive` for a byte; `sr` takes
the answer's byte whatever the result, and bit 3 of the port is cleared by a positive result with a
byte other than 0xFF and set by any other; the other bits of the port stay as the store and the RTC
step left them, the flags as they were (R193). That a positive result is a success and hands back
the new `sr` (R190), the state taken after the store and bit 3 written whatever its direction are
the spec's decision D27; a call in every write is its decision D6; the bits of ACR and of the port
its decisions D16 and D17. -/
def Obligations.ShiftInReceivesAByte : Prop :=
  ∀ (data : Byte) (s : State), s.via1.acr.getLsbD 4 = false →
    ∃ t, exec (.wrOrb .via1 data) s = .next t ∧
      t.outputs = .adbCall (.receive (storedAdbState s.via1 data) s.via1.sr) :: s.outputs ∧
      t.via1.sr = (s.adbReply (.receive (storedAdbState s.via1 data) s.via1.sr)).byte ∧
      t.via1.ifr = s.via1.ifr ∧
      (∀ k, k ≠ 3 → t.via1.b.getLsbD k = (s.storePortB .via1 data).rtcStep.via1.b.getLsbD k) ∧
      (t.via1.b.getLsbD 3 = false ↔
        0 < (s.adbReply (.receive (storedAdbState s.via1 data) s.via1.sr)).ret ∧
          t.via1.sr ≠ 0xFF)

/-- Sending a byte with the sixteen writes of `RTC.SEND` dispatches exactly that byte, once, from
any state in which the three RTC pins are outputs and no bit is in, whatever the other bits of the
port and whatever the ADB collaborator answers meanwhile (R85, R101, R154, R156; the source's
bit-serial round trip, TV1). The edges and the bit order are the spec's decision D19, the pins its
decision D17. -/
def Obligations.SerialSendDispatchesTheByte : Prop :=
  ∀ (s : State) (u byte : Byte) (rest : List Stimulus),
    u.toNat % 8 = 0 → s.via1.dirb.toNat % 8 = 7 → s.rtc.dataOutCount = 0 →
    s.pending = sendByte u byte ++ rest →
    ∃ t v, Host.Core.run core 16 s = .next t ∧
      exec (decodeRtc s.rtc.cmd byte) s = .next v ∧
      t.pram = v.pram ∧ t.pending = rest ∧ t.via2 = s.via2 ∧
      t.rtc = { v.rtc with dataOut := 0x00, dataOutCount := 0, lastPortB := t.via1.b } ∧
      t.adbCalls = s.adbCalls + 16

/-- The sequencer and the PRAM move only in a write of ORB of VIA1 (or, as rows of their own, the
RTC commands) and the sequencer also in a reset; the ADB collaborator is called only by that write
and by a poll (R150, R191, R261). One call in every such write is the spec's decision D6; that a
reset changes the sequencer and keeps the PRAM is its decision D31 (log entries 2, 3, 4 and 20). -/
def Obligations.SequencerAndAdbMoveOnlyWhereNamed : Prop :=
  ∀ (i : Instr) (s t : State), exec i s = .next t → (∀ d, i ≠ .wrOrb .via1 d) →
    (isRtc i = false → t.pram = s.pram ∧ (i ≠ .reset → t.rtc = s.rtc)) ∧
    (i ≠ .fireAdbpoll → t.adbCalls = s.adbCalls ∧ t.adbScript = s.adbScript)

/-! ## RTC commands -/

/-- The four seconds commands queue the four bytes of the 32-bit seconds value, least significant
first, and change nothing else (R160 to R164). The value (whole seconds of `now`, the sum modulo
2^32, taken at the dispatch) is the spec's decision D26 (R160). -/
def Obligations.SecondsCommandsQueueTheFourBytes : Prop :=
  ∀ (s : State) (seconds : Nat),
    seconds = (s.rtc.tickOffset.toNat + s.now / 1000000000) % 2 ^ 32 →
    decodeRtc 0x00 0x81 = .rtcRdsec0 ∧ decodeRtc 0x00 0x85 = .rtcRdsec1 ∧
    decodeRtc 0x00 0x89 = .rtcRdsec2 ∧ decodeRtc 0x00 0x8D = .rtcRdsec3 ∧
    exec .rtcRdsec0 s = .next (s.setRtc { s.rtc with
      dataIn := BitVec.ofNat 8 seconds, dataInCount := 8 }) ∧
    exec .rtcRdsec1 s = .next (s.setRtc { s.rtc with
      dataIn := BitVec.ofNat 8 (seconds / 2 ^ 8), dataInCount := 8 }) ∧
    exec .rtcRdsec2 s = .next (s.setRtc { s.rtc with
      dataIn := BitVec.ofNat 8 (seconds / 2 ^ 16), dataInCount := 8 }) ∧
    exec .rtcRdsec3 s = .next (s.setRtc { s.rtc with
      dataIn := BitVec.ofNat 8 (seconds / 2 ^ 24), dataInCount := 8 })

/-- The PRAM read commands queue the byte addressed, protected or not: a low-bank command byte `8 +
aa`, or `aa` if `LOW_PRAM_ADDR` is the alternative, an extended one byte `sector * XPRAM_STRIDE +
addr`, which also ends the command (R165, R170). So low-bank commands reach 8 to 11, or 0 to 3, and
extended ones 0 to 87 with stride 8, where 8 to 79 have more than one name and the others one, and
each of 0 to 255 by exactly one name with stride 32 (R166, R177). The addresses are the spec's
decisions D21 and D22 (log entry 8); that 80 to 87 have one name only, where R177 says more, is
computed from R96 (log entry 24). -/
def Obligations.PramReadsQueueTheByte : Prop :=
  (∀ (s : State) (aa : BitVec 2) (sector : BitVec 3) (addr : BitVec 5),
    exec (.rtcRdpram aa) s = .next (s.setRtc { s.rtc with
      dataIn := Memory.read s.pram (lowPramAddr s.params.lowPram aa), dataInCount := 8 }) ∧
    exec (.rtcXrd sector addr) s = .next (s.setRtc { s.rtc with
      dataIn := Memory.read s.pram (xpramAddr s.params.xpramStride sector addr),
      dataInCount := 8, cmd := 0x00 }) ∧
    lowPramAddr .nibble aa = 8 + aa.toNat ∧ lowPramAddr .twoBits aa = aa.toNat ∧
    xpramAddr .eight sector addr = sector.toNat * 8 + addr.toNat ∧
    xpramAddr .thirtyTwo sector addr = sector.toNat * 32 + addr.toNat) ∧
  (∀ i, (∃ aa, lowPramAddr .nibble aa = i) ↔ 8 ≤ i ∧ i ≤ 11) ∧
  (∀ i, (∃ aa, lowPramAddr .twoBits aa = i) ↔ i ≤ 3) ∧
  (∀ i, (∃ sector addr, xpramAddr .eight sector addr = i) ↔ i ≤ 87) ∧
  (∀ i, (∃ sector addr sector' addr', sector ≠ sector' ∧
    xpramAddr .eight sector addr = i ∧ xpramAddr .eight sector' addr' = i) ↔ 8 ≤ i ∧ i ≤ 79) ∧
  (∀ i, (∃ sector addr, xpramAddr .thirtyTwo sector addr = i) ↔ i ≤ 255) ∧
  ∀ sector addr sector' addr',
    xpramAddr .thirtyTwo sector addr = xpramAddr .thirtyTwo sector' addr' →
    sector = sector' ∧ addr = addr'

/-- An extended read designator and a write command are latched into `cmd` and nothing else changes;
the write command 0x00 so leaves the sequencer idle (R167, R169). That 0x00 is latched like any
other is the spec's decision D25. -/
def Obligations.CommandBytesAreLatched : Prop :=
  ∀ (s : State) (sector : BitVec 3) (code : BitVec 7),
    exec (.rtcXrdsel sector) s =
      .next (s.setRtc { s.rtc with cmd := BitVec.ofNat 8 (0xB8 + sector.toNat) }) ∧
    exec (.rtcWrcmd code) s =
      .next (s.setRtc { s.rtc with cmd := BitVec.ofNat 8 code.toNat })

/-- A byte with bit 7 set that meets no pattern is, with no command pending, a read command that is
ignored (R168). The two dead rows have no effect and no byte stands for one (R166): the model's
reading, log entry 12. What a write command that meets no pattern does (R176) is in
`Obligations.OtherWriteCommandsEndTheCommand`. -/
def Obligations.IgnoredCommandsChangeNothing : Prop :=
  ∀ (s : State) (byte data : Byte) (aa : BitVec 2),
    (128 ≤ byte.toNat → byte.toNat ∉ [0x81, 0x85, 0x89, 0x8D, 0xA1, 0xA5, 0xA9, 0xAD] →
      byte.toNat / 8 ≠ 0xB8 / 8 → decodeRtc 0x00 byte = .rtcRdnop byte) ∧
    exec (.rtcRdnop byte) s = .next s ∧
    (∀ cmd b, decodeRtc cmd b ≠ .rtcRdpramDead aa ∧ decodeRtc cmd b ≠ .rtcWrpramDead aa data) ∧
    exec (.rtcRdpramDead aa) s = .next s ∧
    exec (.rtcWrpramDead aa data) s = .next s

/-- The extended write. With no addressing byte latched the byte is latched and nothing else
changes; with one latched the byte is stored at `sector * XPRAM_STRIDE + addr`, unless protected,
every other byte of PRAM reads as before, and the sequencer is idle again (R171, R172). How the
cycles are told apart, the address and what protection suppresses are the spec's decisions D22, D23
and D24; the stride is 8 or 32 (log entry 8). -/
def Obligations.ExtendedWriteTakesTwoCycles : Prop :=
  ∀ (s : State) (sector : BitVec 3) (byte : Byte) (stride : Nat),
    stride = (if s.params.xpramStride = .eight then 8 else 32) →
    (s.rtc.alt = 0x00 →
      exec (.rtcXwr sector byte) s = .next (s.setRtc { s.rtc with alt := byte })) ∧
    (s.rtc.alt ≠ 0x00 → Memory.wf s.pram = true →
      ∃ t, exec (.rtcXwr sector byte) s = .next t ∧ OnlySequencerAndPram s t ∧
        t.rtc = { s.rtc with alt := 0x00, cmd := 0x00 } ∧
        (s.rtc.wprotect = true → t.pram = s.pram) ∧
        (s.rtc.wprotect = false →
          Memory.read t.pram (sector.toNat * stride + s.rtc.alt.toNat / 4 % 32) = byte) ∧
        ∀ i, i ≠ sector.toNat * stride + s.rtc.alt.toNat / 4 % 32 →
          Memory.read t.pram i = Memory.read s.pram i)

/-- The low-bank write stores the byte at `8 + aa`, or at `aa` if `LOW_PRAM_ADDR` is the alternative,
unless protected; every other byte of PRAM reads as before, and the sequencer is idle again (R173).
The pattern, the address and what protection suppresses are the spec's decisions D20, D21 (log entry
8) and D23. -/
def Obligations.LowBankWriteStoresTheByte : Prop :=
  ∀ (s : State) (aa : BitVec 2) (data : Byte) (index : Nat), Memory.wf s.pram = true →
    index = (if s.params.lowPram = .nibble then 8 else 0) + aa.toNat →
    ∃ t, exec (.rtcWrpram aa data) s = .next t ∧ OnlySequencerAndPram s t ∧
      t.rtc = { s.rtc with cmd := 0x00 } ∧
      (s.rtc.wprotect = true → t.pram = s.pram) ∧
      (s.rtc.wprotect = false → Memory.read t.pram index = data) ∧
      ∀ i, i ≠ index → Memory.read t.pram i = Memory.read s.pram i

/-- The write-protect command sets the flag to its data bit whatever it was; a write of the seconds
registers and a command of no pattern consume their data byte. Each ends the command and changes
nothing else (R174, R175, R176). That protection does not stop 0x35, and when `cmd` returns to 0,
are the spec's decisions D23 and D25. -/
def Obligations.OtherWriteCommandsEndTheCommand : Prop :=
  ∀ (s : State) (p : Bool) (cmd data : Byte),
    exec (.rtcWprot p) s = .next (s.setRtc { s.rtc with wprotect := p, cmd := 0x00 }) ∧
    exec (.rtcWrsec0 data) s = .next (s.setRtc { s.rtc with cmd := 0x00 }) ∧
    exec (.rtcWrsec1 data) s = .next (s.setRtc { s.rtc with cmd := 0x00 }) ∧
    exec (.rtcWrsec2 data) s = .next (s.setRtc { s.rtc with cmd := 0x00 }) ∧
    exec (.rtcWrsec3 data) s = .next (s.setRtc { s.rtc with cmd := 0x00 }) ∧
    exec (.rtcWrnop cmd data) s = .next (s.setRtc { s.rtc with cmd := 0x00 })

/-- What write protection does: under it no RTC command changes the PRAM, every command leaves all
else (the sequencer with the responses it queues, the banks, the deadlines, the outputs) as it
leaves it without protection, and the write-protect command still acts (R178). The spec's decision
D23. -/
def Obligations.WriteProtectionStopsStoresAlone : Prop :=
  ∀ (i : Instr) (s t u : State), isRtc i = true → s.rtc.wprotect = true →
    exec i s = .next t →
    exec i { s with rtc := { s.rtc with wprotect := false } } = .next u →
    t = { u with pram := s.pram, rtc := { u.rtc with wprotect := t.rtc.wprotect } } ∧
    t.rtc.wprotect = (match i with | .rtcWprot p => p | _ => true)

/-- A byte written by a low-bank command is returned by the matching read command, and by every
extended read of the same index, whatever sector names it, with either value of `LOW_PRAM_ADDR` and
of `XPRAM_STRIDE` (R74, R165, R170, R173, R280). The addresses are the spec's decisions D20, D21 and
D22 (log entry 8). -/
def Obligations.PramWriteIsReadBack : Prop :=
  ∀ (s : State) (aa : BitVec 2) (data : Byte) (index stride : Nat), Memory.wf s.pram = true →
    s.rtc.wprotect = false →
    index = (if s.params.lowPram = .nibble then 8 else 0) + aa.toNat →
    stride = (if s.params.xpramStride = .eight then 8 else 32) →
    ∃ t, exec (.rtcWrpram aa data) s = .next t ∧
      (∃ u, exec (.rtcRdpram aa) t = .next u ∧ u.rtc.dataIn = data ∧ u.rtc.dataInCount = 8) ∧
      ∀ (sector : BitVec 3) (addr : BitVec 5),
        sector.toNat * stride + addr.toNat = index →
        ∃ u, exec (.rtcXrd sector addr) t = .next u ∧ u.rtc.dataIn = data ∧
          u.rtc.dataInCount = 8

/-! ## Events -/

/-- `RESET` gives every field of both banks and of the sequencer its reset value, the four ports
their OPEN ones, and each timer its next deadline; it keeps PRAM, the seconds bias and the clock,
and runs no hook (R260, R261, R263). The values, what is kept and that no hook runs are the spec's
decision D31 (log entries 2, 3, 4 and 20), the three periods its decision D28 (log entry 8) and the
formula of the deadlines its decision D29 (log entry 22). -/
def Obligations.ResetSetsTheDefaults : Prop :=
  ∀ s : State,
    exec .reset s = .next { s with
      via1 := {
        a := s.params.portAReset1, b := s.params.portBReset1, dira := 0, dirb := 0,
        t1c := 0, t1l := 0, t1armed := false, t2c := 0, t2ll := 0, t2armed := false,
        sr := 0, acr := 0, pcr := 0, ifr := 0, ier := 0 }
      via2 := {
        a := s.params.portAReset2, b := s.params.portBReset2, dira := 0, dirb := 0,
        t1c := 0, t1l := 0, t1armed := false, t2c := 0, t2ll := 0, t2armed := false,
        sr := 0, acr := 0, pcr := 0, ifr := 0, ier := 0 }
      rtc := {
        cmd := 0, alt := 0, wprotect := false, dataOut := 0, dataOutCount := 0,
        dataIn := 0, dataInCount := 0, lastPortB := s.params.portBReset1,
        tickOffset := s.rtc.tickOffset }
      nextVbl := (s.now / 16630000 + 1) * 16630000
      nextSec := (s.now / 1000000000 + 1) * 1000000000
      nextAdb := (s.now / 20000000 + 1) * 20000000 }

/-- Construction takes the parameters, `PRAM_INIT`, `TICK_OFFSET` and every required collaborator,
keeps each as given, and ends with a `RESET`: one more changes nothing, and both lines are low at
the inputs they are wired to (R48, R49, R237: the spec's decisions D31 and D37; what stands for a
collaborator is the model's choice, log entry 23). The model's reset state is what it makes of the
recommended parameters; the deadlines in it rest on the spec's decisions D28 (the periods, log entry
8) and D29 (the formula, log entry 22). The model's choice: the values of the OPEN parameters, of
`PRAM_INIT`, of `TICK_OFFSET`, of `now` and of the wiring in it (log entries 1, 2, 3, 4, 5, 9, 13
and 23). -/
def Obligations.ResetStateIsAConstructedMachine : Prop :=
  (∀ (params : Params) (pramInit : Memory) (bias : BitVec 32) (w : Wiring),
    ∃ t, State.construct params pramInit bias w = t ∧ exec .reset t = .next t ∧
      t.params = params ∧ t.pram = pramInit ∧ t.rtc.tickOffset = bias ∧
      t.pending = w.bus ∧ t.now = w.clock ∧ t.adbScript = w.adbScript ∧
      t.adbCalls = w.adbCalls ∧ t.outputs = w.sink ∧ t.lines = w.irq ∧
      t.driven = [(w.irq.via1, false), (w.irq.via2, false)]) ∧
  State.construct Params.recommended [] 0 Wiring.quiet = State.reset ∧
  exec .reset State.reset = .next State.reset ∧
  ∀ bank, State.reset.irq bank = false

/-- The reschedule formula gives the smallest multiple of the period after `now`, which off the grid
is the source's `ceil(now / P) * P` (R206). On the grid this is the spec's decision D29. -/
def Obligations.NextDeadlineIsTheNextGridPoint : Prop :=
  ∀ now period : Nat, 0 < period →
    period ∣ nextDeadline now period ∧ now < nextDeadline now period ∧
    (∀ m, period ∣ m → now < m → nextDeadline now period ≤ m) ∧
    (now % period ≠ 0 → nextDeadline now period = (now + period - 1) / period * period)

/-- `ADVANCE` moves the clock by `dt` and nothing else: no timer fires by it alone (R205). The
spec's decision D30. -/
def Obligations.AdvanceMovesTheClockAlone : Prop :=
  ∀ (s : State) (dt : Nat), exec (.advance dt) s = .next { s with now := s.now + dt }

/-- At or after its deadline the vertical-blank timer sets flag 1 of VIA1 and the one-second timer
flag 0, each takes its next deadline, later than `now`, and nothing else changes (R208, R209). The
flags, the periods and the formula are the spec's decisions D11, D28 and D29. -/
def Obligations.DueTimersSetTheirFlag : Prop :=
  ∀ s : State,
    (s.nextVbl ≤ s.now →
      ∃ f : BitVec 7, exec .fireVbl s = .next { s with
          via1 := { s.via1 with ifr := f }
          nextVbl := (s.now / 16630000 + 1) * 16630000 } ∧
        ∀ k, k < 7 → f.getLsbD k = (decide (k = 1) || s.via1.ifr.getLsbD k)) ∧
    (s.nextSec ≤ s.now →
      ∃ f : BitVec 7, exec .fireSec s = .next { s with
          via1 := { s.via1 with ifr := f }
          nextSec := (s.now / 1000000000 + 1) * 1000000000 } ∧
        ∀ k, k < 7 → f.getLsbD k = (decide (k = 0) || s.via1.ifr.getLsbD k))

/-- At or after its deadline the poll timer takes its next one. With the ADB-interrupt bit clear it
does nothing else and does not call the collaborator; with it set it offers `poll` the state and the
shift register, `sr` takes the answer's byte, and the bit is cleared on success and stays set
otherwise. No flag is set (R196, R210). The calling convention, the period and the formula are the
spec's decisions D27, D28 and D29, the bits of the port its decision D17. -/
def Obligations.DuePollOffersTheShiftRegister : Prop :=
  ∀ s : State, s.nextAdb ≤ s.now →
    (s.via1.b.getLsbD 3 = false →
      exec .fireAdbpoll s = .next { s with nextAdb := (s.now / 20000000 + 1) * 20000000 }) ∧
    (s.via1.b.getLsbD 3 = true → ∀ call,
      call = AdbCall.poll (s.via1.b.extractLsb' 4 2) s.via1.sr →
      ∃ b : Byte, exec .fireAdbpoll s = .next { s with
          via1 := { s.via1 with b := b, sr := (s.adbReply call).byte }
          nextAdb := (s.now / 20000000 + 1) * 20000000
          adbScript := s.adbScript.tail
          adbCalls := s.adbCalls + 1
          outputs := .adbCall call :: s.outputs } ∧
        ∀ k, b.getLsbD k =
          if k = 3 then !(s.adbReply call).ok else s.via1.b.getLsbD k)

/-- Before its deadline no timer fires (R207). The model's choice: a firing offered then is a step
that changes nothing (log entry 6). -/
def Obligations.FiringBeforeTheDeadlineChangesNothing : Prop :=
  ∀ s : State,
    (s.now < s.nextVbl → exec .fireVbl s = .next s) ∧
    (s.now < s.nextSec → exec .fireSec s = .next s) ∧
    (s.now < s.nextAdb → exec .fireAdbpoll s = .next s)

/-- Two firings enabled at the same moment may be taken in either order, to the same end state, and
none is enabled a second time without time passing (R207, R242): the deadline of a timer that has
been fired is later than `now`, even on the grid (the spec's decision D29), and a second firing
changes nothing. That one which is not enabled changes nothing is the model's choice (log entry 6).
When a firing is enabled is the spec's decision D30. -/
def Obligations.FiringsCommuteAndDoNotRepeat : Prop :=
  ∀ (s t u v w : State) (i j : Instr),
    i ∈ [Instr.fireVbl, .fireSec, .fireAdbpoll] → j ∈ [Instr.fireVbl, .fireSec, .fireAdbpoll] →
    exec i s = .next t → exec j t = .next u → exec j s = .next v → exec i v = .next w →
    u = w ∧ exec i t = .next t ∧
      (i = .fireVbl → t.now < t.nextVbl) ∧ (i = .fireSec → t.now < t.nextSec) ∧
      (i = .fireAdbpoll → t.now < t.nextAdb)

/-- A tick of timer 1 counts down; at zero a free-running timer reloads from its latch and sets flag
6, a one-shot wraps to 0xFFFF and sets the flag only if it is armed, which it then no longer is.
Nothing else changes (R214). The spec's decisions D9, D10 and D11. -/
def Obligations.TickOfTimer1 : Prop :=
  ∀ (bank : BankId) (s : State) (v : Via), v = s.via bank →
    ∃ w, exec (.tickT1 bank) s = .next (s.setVia bank w) ∧
      (v.t1c ≠ 0 → w = { v with t1c := w.t1c } ∧ w.t1c.toNat + 1 = v.t1c.toNat) ∧
      (v.t1c = 0 → v.acr.getLsbD 6 = true → w = { v with t1c := v.t1l, ifr := w.ifr }) ∧
      (v.t1c = 0 → v.acr.getLsbD 6 = false → v.t1armed = true →
        w = { v with t1c := 0xFFFF, ifr := w.ifr, t1armed := false }) ∧
      (v.t1c = 0 → v.acr.getLsbD 6 = false → v.t1armed = false →
        w = { v with t1c := 0xFFFF }) ∧
      (v.t1c = 0 → (v.acr.getLsbD 6 = true ∨ v.t1armed = true) →
        ∀ k, k < 7 → w.ifr.getLsbD k = (decide (k = 6) || v.ifr.getLsbD k))

/-- A tick of timer 2 counts down; at zero it wraps to 0xFFFF and sets flag 5 only if it is armed,
which it then no longer is. No bit of ACR matters and nothing else changes (R215). The spec's
decisions D9, D10 and D11. -/
def Obligations.TickOfTimer2 : Prop :=
  ∀ (bank : BankId) (s : State) (v : Via), v = s.via bank →
    ∃ w, exec (.tickT2 bank) s = .next (s.setVia bank w) ∧
      (v.t2c ≠ 0 → w = { v with t2c := w.t2c } ∧ w.t2c.toNat + 1 = v.t2c.toNat) ∧
      (v.t2c = 0 → v.t2armed = true →
        w = { v with t2c := 0xFFFF, ifr := w.ifr, t2armed := false } ∧
        ∀ k, k < 7 → w.ifr.getLsbD k = (decide (k = 5) || v.ifr.getLsbD k)) ∧
      (v.t2c = 0 → v.t2armed = false → w = { v with t2c := 0xFFFF })

/-- A fan-in step gives its own flag the level of the line and leaves every other flag and register;
line 7 has no flag and changes nothing (R220, R222). The spec's decisions D11 and D33. -/
def Obligations.FanInWritesItsOwnFlag : Prop :=
  ∀ (bank : BankId) (line : BitVec 3) (level : Bool) (s : State),
    ∃ f : BitVec 7, exec (.extirq bank line level) s =
        .next (s.setVia bank { s.via bank with ifr := f }) ∧
      (∀ k, k < 7 → f.getLsbD k =
        if k = line.toNat then level else (s.via bank).ifr.getLsbD k) ∧
      (line = 7 → exec (.extirq bank line level) s = .next s)

/-- After a load of `n`, a one-shot timer 1 sets its flag at tick `n + 1`, is then no longer armed,
and no later tick changes a flag whatever the flags have become meanwhile, until it is loaded again;
a free-running one, counting from its latch, is back where it was with its flag set after every `n +
1` ticks (R214, R281). The spec's decisions D9, D10 and D11. -/
def Obligations.TimerFlagsAtTickNPlusOne : Prop :=
  ∀ (v : Via) (n : Nat), v.t1c.toNat = n →
    (v.acr.getLsbD 6 = false → v.t1armed = true →
      (∀ m, m ≤ n → (ticks Via.tickT1 m v).ifr = v.ifr) ∧
      ∀ m, (ticks Via.tickT1 (n + 1 + m) v).ifr = v.ifr ||| 0x40 ∧
        (ticks Via.tickT1 (n + 1 + m) v).t1armed = false ∧
        ∀ (f : BitVec 7) (j : Nat),
          (ticks Via.tickT1 j { ticks Via.tickT1 (n + 1 + m) v with ifr := f }).ifr = f) ∧
    (v.acr.getLsbD 6 = true → v.t1l = v.t1c →
      (∀ m, m ≤ n → (ticks Via.tickT1 m v).ifr = v.ifr) ∧
      ticks Via.tickT1 (n + 1) v = { v with ifr := v.ifr ||| 0x40 })

/-! ## Invariants, save and restore -/

/-- Every step keeps the invariant of the block: the canonical PRAM, the ranges of the sequencer
(R37), the remembered port (R157), each deadline a grid point no later than the next one (R206). The
update of the remembered port and the grid are the spec's decisions D7 and D29, the three periods
its decision D28 (log entry 8), and that a reset remembers the port it sets its decision D31. -/
def Obligations.StepKeepsTheInvariant : Prop :=
  ∀ s t : State, s.Inv → step s = .next t → t.Inv

/-- The invariant holds in the reset state. The values in it that the spec leaves open are the
model's choice (log entries 2, 3 and 4); the others are the spec's decisions D31 (log entry 20), D28
(the periods, log entry 8) and D29 (the grid, log entry 22). -/
def Obligations.InvariantHoldsAtReset : Prop := State.reset.Inv

/-- A restored machine has the registers, the sequencer and the PRAM of the snapshot, deadlines
computed from its own clock, and so the invariant, if the machine the snapshot was taken of had it;
its clock and all else are its own (R254). That the deadlines are recomputed is the spec's decision
D36, the three periods its decision D28 (log entry 8), the formula its decision D29 (log entry 22);
that the clock, the parameters, the wiring of the lines, the offers, the answers and the outputs
stay the restoring machine's is the model's deduction (log entry 18). -/
def Obligations.RestoreGivesBackTheSnapshot : Prop :=
  ∀ s fresh : State,
    (fresh.restore s.snapshot).snapshot = s.snapshot ∧
    fresh.restore s.snapshot = { fresh with
      via1 := s.via1, via2 := s.via2, rtc := s.rtc, pram := s.pram
      nextVbl := (fresh.now / 16630000 + 1) * 16630000
      nextSec := (fresh.now / 1000000000 + 1) * 1000000000
      nextAdb := (fresh.now / 20000000 + 1) * 20000000 } ∧
    (s.Inv → (fresh.restore s.snapshot).Inv)
end

