-- ==== Sys2Proof/Laws/Memory.lean ====
section
/-! SUPPORT. The laws of the PRAM as a memory: reading after writing, and that a write keeps the
canonical form. -/

namespace Sys2Proof.Machine

@[simp] theorem read_nil (a : Nat) : Memory.read [] a = Config.pramBlank := rfl

/-- An address below every listed one reads as the blank byte. -/
theorem read_below {m : Memory} {lo a : Nat} (h : Memory.wfFrom lo m = true) (ha : a < lo) :
    Memory.read m a = Config.pramBlank := by
  induction m generalizing lo with
  | nil => rfl
  | cons c rest ih =>
    obtain ⟨k, w⟩ := c
    simp only [Memory.wfFrom, Bool.and_eq_true, decide_eq_true_eq] at h
    obtain ⟨⟨⟨hk, _⟩, _⟩, hr⟩ := h
    simp only [Memory.read]
    rw [if_neg (by omega)]
    exact ih hr (by omega)

/-- Canonical from an address on is canonical from any lower one. -/
theorem wfFrom_mono {m : Memory} {lo lo' : Nat} (h : Memory.wfFrom lo m = true) (hl : lo' ≤ lo) :
    Memory.wfFrom lo' m = true := by
  cases m with
  | nil => rfl
  | cons c rest =>
    obtain ⟨k, w⟩ := c
    simp only [Memory.wfFrom, Bool.and_eq_true, decide_eq_true_eq] at h ⊢
    exact ⟨⟨⟨by omega, h.1.1.2⟩, h.1.2⟩, h.2⟩

/-- A write inside the PRAM keeps the canonical form from any address not above it. -/
theorem wfFrom_write {m : Memory} {lo a : Nat} {v : Byte} (h : Memory.wfFrom lo m = true)
    (hl : lo ≤ a) (ha : a < Config.pramSize) : Memory.wfFrom lo (Memory.write m a v) = true := by
  induction m generalizing lo with
  | nil =>
    simp only [Memory.write]
    split
    · rfl
    · next hv => simp [Memory.wfFrom, hl, ha, hv]
  | cons c rest ih =>
    obtain ⟨k, w⟩ := c
    have h' := h
    simp only [Memory.wfFrom, Bool.and_eq_true, decide_eq_true_eq] at h
    obtain ⟨⟨⟨hk, hks⟩, hw⟩, hr⟩ := h
    simp only [Memory.write]
    split
    · split
      · exact h'
      · next hak hv =>
        simp only [Memory.wfFrom, Bool.and_eq_true, decide_eq_true_eq]
        refine ⟨⟨⟨hl, ha⟩, by simp [hv]⟩, ⟨⟨by omega, hks⟩, hw⟩, hr⟩
    · split
      · next hak =>
        subst hak
        split
        · exact wfFrom_mono hr (by omega)
        · next hv =>
          simp only [Memory.wfFrom, Bool.and_eq_true, decide_eq_true_eq]
          exact ⟨⟨⟨hl, ha⟩, by simp [hv]⟩, hr⟩
      · simp only [Memory.wfFrom, Bool.and_eq_true, decide_eq_true_eq]
        exact ⟨⟨⟨hk, hks⟩, hw⟩, ih hr (by omega)⟩

/-- Every write of the PRAM keeps its canonical form. -/
theorem wf_write {m : Memory} {a : Nat} (v : Byte) (h : Memory.wf m = true)
    (ha : a < Config.pramSize) : Memory.wf (Memory.write m a v) = true :=
  wfFrom_write h (Nat.zero_le a) ha

/-- The byte just written is read back from a canonical memory. -/
theorem read_write_same {m : Memory} {lo a : Nat} (v : Byte) (h : Memory.wfFrom lo m = true) :
    Memory.read (Memory.write m a v) a = v := by
  induction m generalizing lo with
  | nil =>
    simp only [Memory.write]
    split
    · next hv => exact hv.symm
    · simp [Memory.read]
  | cons c rest ih =>
    obtain ⟨k, w⟩ := c
    have h' := h
    simp only [Memory.wfFrom, Bool.and_eq_true, decide_eq_true_eq] at h
    obtain ⟨_, hr⟩ := h
    simp only [Memory.write]
    split
    · next hak =>
      split
      · next hv =>
        simp only [Memory.read]
        rw [if_neg (by omega), read_below hr (by omega), hv]
      · simp [Memory.read]
    · split
      · next hak =>
        subst hak
        split
        · next hv => rw [read_below hr (by omega), hv]
        · simp [Memory.read]
      · next hak =>
        simp only [Memory.read]
        rw [if_neg (by omega)]
        exact ih hr

/-- A write leaves every other byte alone. -/
theorem read_write_other (m : Memory) {a i : Nat} (v : Byte) (hi : i ≠ a) :
    Memory.read (Memory.write m a v) i = Memory.read m i := by
  induction m with
  | nil =>
    simp only [Memory.write]
    split
    · rfl
    · simp [Memory.read, Ne.symm hi]
  | cons c rest ih =>
    obtain ⟨k, w⟩ := c
    simp only [Memory.write]
    split
    · split
      · rfl
      · simp [Memory.read, Ne.symm hi]
    · split
      · next hak =>
        subst hak
        split <;> simp [Memory.read, Ne.symm hi]
      · simp [Memory.read, ih]

/-! ## The indices commands reach -/

/-- `LOW_PRAM_ADDR` on the bytes of the pattern, read and write alike: the extraction of R95. -/
theorem lowPramAddr_byte : ∀ b : Byte, b &&& 0x73 = 0x21 →
    lowPramAddr .nibble (aaField b) = ((b >>> 2) &&& 0x0F).toNat ∧
    lowPramAddr .twoBits (aaField b) = ((b >>> 2) &&& 0x03).toNat := by decide

/-- A low-bank command reaches 8..11, or with the other extraction 0..3 (R166, R177). -/
theorem lowPramAddr_range (aa : BitVec 2) :
    (8 ≤ lowPramAddr .nibble aa ∧ lowPramAddr .nibble aa ≤ 11) ∧ lowPramAddr .twoBits aa ≤ 3 := by
  have := aa.isLt
  simp only [lowPramAddr]; omega

/-- An extended command reaches at most 87, or with stride 32 at most 255 (R11, R177). -/
theorem xpramAddr_range (sector : BitVec 3) (addr : BitVec 5) :
    xpramAddr .eight sector addr ≤ 87 ∧ xpramAddr .thirtyTwo sector addr ≤ 255 := by
  have h1 := sector.isLt
  have h2 := addr.isLt
  simp only [xpramAddr, strideValue]; omega

/-- The address of a low-bank command is inside the PRAM (R11). -/
theorem lowPramAddr_lt (low : LowPram) (aa : BitVec 2) : lowPramAddr low aa < Config.pramSize := by
  have := lowPramAddr_range aa
  cases low <;> simp only [Config.pramSize] <;> omega

/-- The address of an extended command is inside the PRAM (R11). -/
theorem xpramAddr_lt (stride : XpramStride) (sector : BitVec 3) (addr : BitVec 5) :
    xpramAddr stride sector addr < Config.pramSize := by
  have := xpramAddr_range sector addr
  cases stride <;> simp only [Config.pramSize] <;> omega

/-- A store of a command keeps the canonical form, protected or not. -/
theorem pramStore_wf {s : State} {i : Nat} (v : Byte) (h : Memory.wf s.pram = true)
    (hi : i < Config.pramSize) : Memory.wf (s.pramStore i v).pram = true := by
  unfold State.pramStore
  split
  · exact h
  · exact wf_write v h hi

end Sys2Proof.Machine
end

