-- ==== Sys2Proof/Laws/State.lean ====
section
/-! SUPPORT. What each update of the state does to each field: later proofs rewrite with these and
never unfold a record update. -/

namespace Sys2Proof.Machine

/-! ## Banks -/

@[simp] theorem via_via1 (s : State) : s.via .via1 = s.via1 := rfl
@[simp] theorem via_via2 (s : State) : s.via .via2 = s.via2 := rfl

@[simp] theorem setVia_via_same (s : State) (bank : BankId) (v : Via) :
    (s.setVia bank v).via bank = v := by cases bank <;> rfl

theorem setVia_via_other (s : State) (bank other : BankId) (v : Via) (h : other ≠ bank) :
    (s.setVia bank v).via other = s.via other := by
  cases bank <;> cases other <;> first | rfl | exact absurd rfl h

@[simp] theorem setVia_setVia (s : State) (bank : BankId) (v w : Via) :
    (s.setVia bank v).setVia bank w = s.setVia bank w := by cases bank <;> rfl

@[simp] theorem setVia_self (s : State) (bank : BankId) : s.setVia bank (s.via bank) = s := by
  cases bank <;> rfl

theorem onlyBank_setVia (s : State) (bank : BankId) (v : Via) :
    OnlyBank bank s (s.setVia bank v) := by
  simp [OnlyBank]

@[simp] theorem setVia_rtc (s : State) (bank : BankId) (v : Via) :
    (s.setVia bank v).rtc = s.rtc := by cases bank <;> rfl
@[simp] theorem setVia_pram (s : State) (bank : BankId) (v : Via) :
    (s.setVia bank v).pram = s.pram := by cases bank <;> rfl
@[simp] theorem setVia_nextVbl (s : State) (bank : BankId) (v : Via) :
    (s.setVia bank v).nextVbl = s.nextVbl := by cases bank <;> rfl
@[simp] theorem setVia_nextSec (s : State) (bank : BankId) (v : Via) :
    (s.setVia bank v).nextSec = s.nextSec := by cases bank <;> rfl
@[simp] theorem setVia_nextAdb (s : State) (bank : BankId) (v : Via) :
    (s.setVia bank v).nextAdb = s.nextAdb := by cases bank <;> rfl
@[simp] theorem setVia_now (s : State) (bank : BankId) (v : Via) :
    (s.setVia bank v).now = s.now := by cases bank <;> rfl
@[simp] theorem setVia_params (s : State) (bank : BankId) (v : Via) :
    (s.setVia bank v).params = s.params := by cases bank <;> rfl
@[simp] theorem setVia_lines (s : State) (bank : BankId) (v : Via) :
    (s.setVia bank v).lines = s.lines := by cases bank <;> rfl
@[simp] theorem setVia_pending (s : State) (bank : BankId) (v : Via) :
    (s.setVia bank v).pending = s.pending := by cases bank <;> rfl
@[simp] theorem setVia_adbScript (s : State) (bank : BankId) (v : Via) :
    (s.setVia bank v).adbScript = s.adbScript := by cases bank <;> rfl
@[simp] theorem setVia_adbCalls (s : State) (bank : BankId) (v : Via) :
    (s.setVia bank v).adbCalls = s.adbCalls := by cases bank <;> rfl
@[simp] theorem setVia_outputs (s : State) (bank : BankId) (v : Via) :
    (s.setVia bank v).outputs = s.outputs := by cases bank <;> rfl

/-! ## Construction: each argument stands in its field (R237) -/

section Construct

variable (params : Params) (pram : Memory) (bias : BitVec 32) (w : Wiring)

@[simp] theorem construct_params : (State.construct params pram bias w).params = params := rfl
@[simp] theorem construct_pram : (State.construct params pram bias w).pram = pram := rfl
@[simp] theorem construct_tickOffset :
    (State.construct params pram bias w).rtc.tickOffset = bias := rfl
@[simp] theorem construct_lines : (State.construct params pram bias w).lines = w.irq := rfl
@[simp] theorem construct_now : (State.construct params pram bias w).now = w.clock := rfl
@[simp] theorem construct_pending : (State.construct params pram bias w).pending = w.bus := rfl
@[simp] theorem construct_adbScript :
    (State.construct params pram bias w).adbScript = w.adbScript := rfl
@[simp] theorem construct_adbCalls :
    (State.construct params pram bias w).adbCalls = w.adbCalls := rfl
@[simp] theorem construct_outputs : (State.construct params pram bias w).outputs = w.sink := rfl

end Construct

/-! ## `setRtc` -/

@[simp] theorem setRtc_via1 (s : State) (r : Rtc) :
    (s.setRtc r).via1 = s.via1 := rfl
@[simp] theorem setRtc_via2 (s : State) (r : Rtc) :
    (s.setRtc r).via2 = s.via2 := rfl
@[simp] theorem setRtc_rtc (s : State) (r : Rtc) :
    (s.setRtc r).rtc = r := rfl
@[simp] theorem setRtc_pram (s : State) (r : Rtc) :
    (s.setRtc r).pram = s.pram := rfl
@[simp] theorem setRtc_nextVbl (s : State) (r : Rtc) :
    (s.setRtc r).nextVbl = s.nextVbl := rfl
@[simp] theorem setRtc_nextSec (s : State) (r : Rtc) :
    (s.setRtc r).nextSec = s.nextSec := rfl
@[simp] theorem setRtc_nextAdb (s : State) (r : Rtc) :
    (s.setRtc r).nextAdb = s.nextAdb := rfl
@[simp] theorem setRtc_now (s : State) (r : Rtc) :
    (s.setRtc r).now = s.now := rfl
@[simp] theorem setRtc_params (s : State) (r : Rtc) :
    (s.setRtc r).params = s.params := rfl
@[simp] theorem setRtc_lines (s : State) (r : Rtc) :
    (s.setRtc r).lines = s.lines := rfl
@[simp] theorem setRtc_pending (s : State) (r : Rtc) :
    (s.setRtc r).pending = s.pending := rfl
@[simp] theorem setRtc_adbScript (s : State) (r : Rtc) :
    (s.setRtc r).adbScript = s.adbScript := rfl
@[simp] theorem setRtc_adbCalls (s : State) (r : Rtc) :
    (s.setRtc r).adbCalls = s.adbCalls := rfl
@[simp] theorem setRtc_outputs (s : State) (r : Rtc) :
    (s.setRtc r).outputs = s.outputs := rfl

/-! ## `emit` -/

@[simp] theorem emit_via1 (s : State) (o : Output) :
    (s.emit o).via1 = s.via1 := rfl
@[simp] theorem emit_via2 (s : State) (o : Output) :
    (s.emit o).via2 = s.via2 := rfl
@[simp] theorem emit_rtc (s : State) (o : Output) :
    (s.emit o).rtc = s.rtc := rfl
@[simp] theorem emit_pram (s : State) (o : Output) :
    (s.emit o).pram = s.pram := rfl
@[simp] theorem emit_nextVbl (s : State) (o : Output) :
    (s.emit o).nextVbl = s.nextVbl := rfl
@[simp] theorem emit_nextSec (s : State) (o : Output) :
    (s.emit o).nextSec = s.nextSec := rfl
@[simp] theorem emit_nextAdb (s : State) (o : Output) :
    (s.emit o).nextAdb = s.nextAdb := rfl
@[simp] theorem emit_now (s : State) (o : Output) :
    (s.emit o).now = s.now := rfl
@[simp] theorem emit_params (s : State) (o : Output) :
    (s.emit o).params = s.params := rfl
@[simp] theorem emit_lines (s : State) (o : Output) :
    (s.emit o).lines = s.lines := rfl
@[simp] theorem emit_pending (s : State) (o : Output) :
    (s.emit o).pending = s.pending := rfl
@[simp] theorem emit_adbScript (s : State) (o : Output) :
    (s.emit o).adbScript = s.adbScript := rfl
@[simp] theorem emit_adbCalls (s : State) (o : Output) :
    (s.emit o).adbCalls = s.adbCalls := rfl
@[simp] theorem emit_outputs (s : State) (o : Output) :
    (s.emit o).outputs = o :: s.outputs := rfl

/-! ## `answerRead` -/

@[simp] theorem answerRead_via1 (s : State) (bank : BankId) (value : Byte) :
    (s.answerRead bank value).via1 = s.via1 := rfl
@[simp] theorem answerRead_via2 (s : State) (bank : BankId) (value : Byte) :
    (s.answerRead bank value).via2 = s.via2 := rfl
@[simp] theorem answerRead_rtc (s : State) (bank : BankId) (value : Byte) :
    (s.answerRead bank value).rtc = s.rtc := rfl
@[simp] theorem answerRead_pram (s : State) (bank : BankId) (value : Byte) :
    (s.answerRead bank value).pram = s.pram := rfl
@[simp] theorem answerRead_nextVbl (s : State) (bank : BankId) (value : Byte) :
    (s.answerRead bank value).nextVbl = s.nextVbl := rfl
@[simp] theorem answerRead_nextSec (s : State) (bank : BankId) (value : Byte) :
    (s.answerRead bank value).nextSec = s.nextSec := rfl
@[simp] theorem answerRead_nextAdb (s : State) (bank : BankId) (value : Byte) :
    (s.answerRead bank value).nextAdb = s.nextAdb := rfl
@[simp] theorem answerRead_now (s : State) (bank : BankId) (value : Byte) :
    (s.answerRead bank value).now = s.now := rfl
@[simp] theorem answerRead_params (s : State) (bank : BankId) (value : Byte) :
    (s.answerRead bank value).params = s.params := rfl
@[simp] theorem answerRead_lines (s : State) (bank : BankId) (value : Byte) :
    (s.answerRead bank value).lines = s.lines := rfl
@[simp] theorem answerRead_pending (s : State) (bank : BankId) (value : Byte) :
    (s.answerRead bank value).pending = s.pending := rfl
@[simp] theorem answerRead_adbScript (s : State) (bank : BankId) (value : Byte) :
    (s.answerRead bank value).adbScript = s.adbScript := rfl
@[simp] theorem answerRead_adbCalls (s : State) (bank : BankId) (value : Byte) :
    (s.answerRead bank value).adbCalls = s.adbCalls := rfl
@[simp] theorem answerRead_outputs (s : State) (bank : BankId) (value : Byte) :
    (s.answerRead bank value).outputs = .readByte bank value :: s.outputs := rfl

/-! ## `pramWrite` -/

@[simp] theorem pramWrite_via1 (s : State) (i : Nat) (v : Byte) :
    (s.pramWrite i v).via1 = s.via1 := rfl
@[simp] theorem pramWrite_via2 (s : State) (i : Nat) (v : Byte) :
    (s.pramWrite i v).via2 = s.via2 := rfl
@[simp] theorem pramWrite_rtc (s : State) (i : Nat) (v : Byte) :
    (s.pramWrite i v).rtc = s.rtc := rfl
@[simp] theorem pramWrite_pram (s : State) (i : Nat) (v : Byte) :
    (s.pramWrite i v).pram = Memory.write s.pram i v := rfl
@[simp] theorem pramWrite_nextVbl (s : State) (i : Nat) (v : Byte) :
    (s.pramWrite i v).nextVbl = s.nextVbl := rfl
@[simp] theorem pramWrite_nextSec (s : State) (i : Nat) (v : Byte) :
    (s.pramWrite i v).nextSec = s.nextSec := rfl
@[simp] theorem pramWrite_nextAdb (s : State) (i : Nat) (v : Byte) :
    (s.pramWrite i v).nextAdb = s.nextAdb := rfl
@[simp] theorem pramWrite_now (s : State) (i : Nat) (v : Byte) :
    (s.pramWrite i v).now = s.now := rfl
@[simp] theorem pramWrite_params (s : State) (i : Nat) (v : Byte) :
    (s.pramWrite i v).params = s.params := rfl
@[simp] theorem pramWrite_lines (s : State) (i : Nat) (v : Byte) :
    (s.pramWrite i v).lines = s.lines := rfl
@[simp] theorem pramWrite_pending (s : State) (i : Nat) (v : Byte) :
    (s.pramWrite i v).pending = s.pending := rfl
@[simp] theorem pramWrite_adbScript (s : State) (i : Nat) (v : Byte) :
    (s.pramWrite i v).adbScript = s.adbScript := rfl
@[simp] theorem pramWrite_adbCalls (s : State) (i : Nat) (v : Byte) :
    (s.pramWrite i v).adbCalls = s.adbCalls := rfl
@[simp] theorem pramWrite_outputs (s : State) (i : Nat) (v : Byte) :
    (s.pramWrite i v).outputs = s.outputs := rfl

/-! ## `adbAsked` -/

@[simp] theorem adbAsked_via1 (s : State) (call : AdbCall) :
    (s.adbAsked call).via1 = s.via1 := rfl
@[simp] theorem adbAsked_via2 (s : State) (call : AdbCall) :
    (s.adbAsked call).via2 = s.via2 := rfl
@[simp] theorem adbAsked_rtc (s : State) (call : AdbCall) :
    (s.adbAsked call).rtc = s.rtc := rfl
@[simp] theorem adbAsked_pram (s : State) (call : AdbCall) :
    (s.adbAsked call).pram = s.pram := rfl
@[simp] theorem adbAsked_nextVbl (s : State) (call : AdbCall) :
    (s.adbAsked call).nextVbl = s.nextVbl := rfl
@[simp] theorem adbAsked_nextSec (s : State) (call : AdbCall) :
    (s.adbAsked call).nextSec = s.nextSec := rfl
@[simp] theorem adbAsked_nextAdb (s : State) (call : AdbCall) :
    (s.adbAsked call).nextAdb = s.nextAdb := rfl
@[simp] theorem adbAsked_now (s : State) (call : AdbCall) :
    (s.adbAsked call).now = s.now := rfl
@[simp] theorem adbAsked_params (s : State) (call : AdbCall) :
    (s.adbAsked call).params = s.params := rfl
@[simp] theorem adbAsked_lines (s : State) (call : AdbCall) :
    (s.adbAsked call).lines = s.lines := rfl
@[simp] theorem adbAsked_pending (s : State) (call : AdbCall) :
    (s.adbAsked call).pending = s.pending := rfl
@[simp] theorem adbAsked_adbScript (s : State) (call : AdbCall) :
    (s.adbAsked call).adbScript = s.adbScript.tail := rfl
@[simp] theorem adbAsked_adbCalls (s : State) (call : AdbCall) :
    (s.adbAsked call).adbCalls = s.adbCalls + 1 := rfl
@[simp] theorem adbAsked_outputs (s : State) (call : AdbCall) :
    (s.adbAsked call).outputs = .adbCall call :: s.outputs := rfl

/-! ## `setAdbInt` -/

@[simp] theorem setAdbInt_via1 (s : State) (v : Bool) :
    (s.setAdbInt v).via1 = { s.via1 with b := withAdbInt s.via1.b v } := rfl
@[simp] theorem setAdbInt_via2 (s : State) (v : Bool) :
    (s.setAdbInt v).via2 = s.via2 := rfl
@[simp] theorem setAdbInt_rtc (s : State) (v : Bool) :
    (s.setAdbInt v).rtc = s.rtc := rfl
@[simp] theorem setAdbInt_pram (s : State) (v : Bool) :
    (s.setAdbInt v).pram = s.pram := rfl
@[simp] theorem setAdbInt_nextVbl (s : State) (v : Bool) :
    (s.setAdbInt v).nextVbl = s.nextVbl := rfl
@[simp] theorem setAdbInt_nextSec (s : State) (v : Bool) :
    (s.setAdbInt v).nextSec = s.nextSec := rfl
@[simp] theorem setAdbInt_nextAdb (s : State) (v : Bool) :
    (s.setAdbInt v).nextAdb = s.nextAdb := rfl
@[simp] theorem setAdbInt_now (s : State) (v : Bool) :
    (s.setAdbInt v).now = s.now := rfl
@[simp] theorem setAdbInt_params (s : State) (v : Bool) :
    (s.setAdbInt v).params = s.params := rfl
@[simp] theorem setAdbInt_lines (s : State) (v : Bool) :
    (s.setAdbInt v).lines = s.lines := rfl
@[simp] theorem setAdbInt_pending (s : State) (v : Bool) :
    (s.setAdbInt v).pending = s.pending := rfl
@[simp] theorem setAdbInt_adbScript (s : State) (v : Bool) :
    (s.setAdbInt v).adbScript = s.adbScript := rfl
@[simp] theorem setAdbInt_adbCalls (s : State) (v : Bool) :
    (s.setAdbInt v).adbCalls = s.adbCalls := rfl
@[simp] theorem setAdbInt_outputs (s : State) (v : Bool) :
    (s.setAdbInt v).outputs = s.outputs := rfl

/-! ## `setSr1` -/

@[simp] theorem setSr1_via1 (s : State) (v : Byte) :
    (s.setSr1 v).via1 = { s.via1 with sr := v } := rfl
@[simp] theorem setSr1_via2 (s : State) (v : Byte) :
    (s.setSr1 v).via2 = s.via2 := rfl
@[simp] theorem setSr1_rtc (s : State) (v : Byte) :
    (s.setSr1 v).rtc = s.rtc := rfl
@[simp] theorem setSr1_pram (s : State) (v : Byte) :
    (s.setSr1 v).pram = s.pram := rfl
@[simp] theorem setSr1_nextVbl (s : State) (v : Byte) :
    (s.setSr1 v).nextVbl = s.nextVbl := rfl
@[simp] theorem setSr1_nextSec (s : State) (v : Byte) :
    (s.setSr1 v).nextSec = s.nextSec := rfl
@[simp] theorem setSr1_nextAdb (s : State) (v : Byte) :
    (s.setSr1 v).nextAdb = s.nextAdb := rfl
@[simp] theorem setSr1_now (s : State) (v : Byte) :
    (s.setSr1 v).now = s.now := rfl
@[simp] theorem setSr1_params (s : State) (v : Byte) :
    (s.setSr1 v).params = s.params := rfl
@[simp] theorem setSr1_lines (s : State) (v : Byte) :
    (s.setSr1 v).lines = s.lines := rfl
@[simp] theorem setSr1_pending (s : State) (v : Byte) :
    (s.setSr1 v).pending = s.pending := rfl
@[simp] theorem setSr1_adbScript (s : State) (v : Byte) :
    (s.setSr1 v).adbScript = s.adbScript := rfl
@[simp] theorem setSr1_adbCalls (s : State) (v : Byte) :
    (s.setSr1 v).adbCalls = s.adbCalls := rfl
@[simp] theorem setSr1_outputs (s : State) (v : Byte) :
    (s.setSr1 v).outputs = s.outputs := rfl

/-! ## `reschedule` -/

@[simp] theorem reschedule_via1 (s : State) :
    (s.reschedule).via1 = s.via1 := rfl
@[simp] theorem reschedule_via2 (s : State) :
    (s.reschedule).via2 = s.via2 := rfl
@[simp] theorem reschedule_rtc (s : State) :
    (s.reschedule).rtc = s.rtc := rfl
@[simp] theorem reschedule_pram (s : State) :
    (s.reschedule).pram = s.pram := rfl
@[simp] theorem reschedule_nextVbl (s : State) :
    (s.reschedule).nextVbl = nextDeadline s.now Config.periodVbl := rfl
@[simp] theorem reschedule_nextSec (s : State) :
    (s.reschedule).nextSec = nextDeadline s.now Config.periodSec := rfl
@[simp] theorem reschedule_nextAdb (s : State) :
    (s.reschedule).nextAdb = nextDeadline s.now Config.periodAdbpoll := rfl
@[simp] theorem reschedule_now (s : State) :
    (s.reschedule).now = s.now := rfl
@[simp] theorem reschedule_params (s : State) :
    (s.reschedule).params = s.params := rfl
@[simp] theorem reschedule_lines (s : State) :
    (s.reschedule).lines = s.lines := rfl
@[simp] theorem reschedule_pending (s : State) :
    (s.reschedule).pending = s.pending := rfl
@[simp] theorem reschedule_adbScript (s : State) :
    (s.reschedule).adbScript = s.adbScript := rfl
@[simp] theorem reschedule_adbCalls (s : State) :
    (s.reschedule).adbCalls = s.adbCalls := rfl
@[simp] theorem reschedule_outputs (s : State) :
    (s.reschedule).outputs = s.outputs := rfl

/-! ## `queueResponse` -/

@[simp] theorem queueResponse_via1 (s : State) (v : Byte) :
    (s.queueResponse v).via1 = s.via1 := rfl
@[simp] theorem queueResponse_via2 (s : State) (v : Byte) :
    (s.queueResponse v).via2 = s.via2 := rfl
@[simp] theorem queueResponse_rtc (s : State) (v : Byte) :
    (s.queueResponse v).rtc = { s.rtc with dataIn := v, dataInCount := 8 } := rfl
@[simp] theorem queueResponse_pram (s : State) (v : Byte) :
    (s.queueResponse v).pram = s.pram := rfl
@[simp] theorem queueResponse_nextVbl (s : State) (v : Byte) :
    (s.queueResponse v).nextVbl = s.nextVbl := rfl
@[simp] theorem queueResponse_nextSec (s : State) (v : Byte) :
    (s.queueResponse v).nextSec = s.nextSec := rfl
@[simp] theorem queueResponse_nextAdb (s : State) (v : Byte) :
    (s.queueResponse v).nextAdb = s.nextAdb := rfl
@[simp] theorem queueResponse_now (s : State) (v : Byte) :
    (s.queueResponse v).now = s.now := rfl
@[simp] theorem queueResponse_params (s : State) (v : Byte) :
    (s.queueResponse v).params = s.params := rfl
@[simp] theorem queueResponse_lines (s : State) (v : Byte) :
    (s.queueResponse v).lines = s.lines := rfl
@[simp] theorem queueResponse_pending (s : State) (v : Byte) :
    (s.queueResponse v).pending = s.pending := rfl
@[simp] theorem queueResponse_adbScript (s : State) (v : Byte) :
    (s.queueResponse v).adbScript = s.adbScript := rfl
@[simp] theorem queueResponse_adbCalls (s : State) (v : Byte) :
    (s.queueResponse v).adbCalls = s.adbCalls := rfl
@[simp] theorem queueResponse_outputs (s : State) (v : Byte) :
    (s.queueResponse v).outputs = s.outputs := rfl

/-! ## `endCommand` -/

@[simp] theorem endCommand_via1 (s : State) :
    (s.endCommand).via1 = s.via1 := rfl
@[simp] theorem endCommand_via2 (s : State) :
    (s.endCommand).via2 = s.via2 := rfl
@[simp] theorem endCommand_rtc (s : State) :
    (s.endCommand).rtc = { s.rtc with cmd := 0x00 } := rfl
@[simp] theorem endCommand_pram (s : State) :
    (s.endCommand).pram = s.pram := rfl
@[simp] theorem endCommand_nextVbl (s : State) :
    (s.endCommand).nextVbl = s.nextVbl := rfl
@[simp] theorem endCommand_nextSec (s : State) :
    (s.endCommand).nextSec = s.nextSec := rfl
@[simp] theorem endCommand_nextAdb (s : State) :
    (s.endCommand).nextAdb = s.nextAdb := rfl
@[simp] theorem endCommand_now (s : State) :
    (s.endCommand).now = s.now := rfl
@[simp] theorem endCommand_params (s : State) :
    (s.endCommand).params = s.params := rfl
@[simp] theorem endCommand_lines (s : State) :
    (s.endCommand).lines = s.lines := rfl
@[simp] theorem endCommand_pending (s : State) :
    (s.endCommand).pending = s.pending := rfl
@[simp] theorem endCommand_adbScript (s : State) :
    (s.endCommand).adbScript = s.adbScript := rfl
@[simp] theorem endCommand_adbCalls (s : State) :
    (s.endCommand).adbCalls = s.adbCalls := rfl
@[simp] theorem endCommand_outputs (s : State) :
    (s.endCommand).outputs = s.outputs := rfl

/-! ## `latchCommand` -/

@[simp] theorem latchCommand_via1 (s : State) (cmd : Byte) :
    (s.latchCommand cmd).via1 = s.via1 := rfl
@[simp] theorem latchCommand_via2 (s : State) (cmd : Byte) :
    (s.latchCommand cmd).via2 = s.via2 := rfl
@[simp] theorem latchCommand_rtc (s : State) (cmd : Byte) :
    (s.latchCommand cmd).rtc = { s.rtc with cmd := cmd } := rfl
@[simp] theorem latchCommand_pram (s : State) (cmd : Byte) :
    (s.latchCommand cmd).pram = s.pram := rfl
@[simp] theorem latchCommand_nextVbl (s : State) (cmd : Byte) :
    (s.latchCommand cmd).nextVbl = s.nextVbl := rfl
@[simp] theorem latchCommand_nextSec (s : State) (cmd : Byte) :
    (s.latchCommand cmd).nextSec = s.nextSec := rfl
@[simp] theorem latchCommand_nextAdb (s : State) (cmd : Byte) :
    (s.latchCommand cmd).nextAdb = s.nextAdb := rfl
@[simp] theorem latchCommand_now (s : State) (cmd : Byte) :
    (s.latchCommand cmd).now = s.now := rfl
@[simp] theorem latchCommand_params (s : State) (cmd : Byte) :
    (s.latchCommand cmd).params = s.params := rfl
@[simp] theorem latchCommand_lines (s : State) (cmd : Byte) :
    (s.latchCommand cmd).lines = s.lines := rfl
@[simp] theorem latchCommand_pending (s : State) (cmd : Byte) :
    (s.latchCommand cmd).pending = s.pending := rfl
@[simp] theorem latchCommand_adbScript (s : State) (cmd : Byte) :
    (s.latchCommand cmd).adbScript = s.adbScript := rfl
@[simp] theorem latchCommand_adbCalls (s : State) (cmd : Byte) :
    (s.latchCommand cmd).adbCalls = s.adbCalls := rfl
@[simp] theorem latchCommand_outputs (s : State) (cmd : Byte) :
    (s.latchCommand cmd).outputs = s.outputs := rfl

/-! ## `rememberPortB` -/

@[simp] theorem rememberPortB_via1 (s : State) :
    (s.rememberPortB).via1 = s.via1 := rfl
@[simp] theorem rememberPortB_via2 (s : State) :
    (s.rememberPortB).via2 = s.via2 := rfl
@[simp] theorem rememberPortB_rtc (s : State) :
    (s.rememberPortB).rtc = { s.rtc with lastPortB := s.via1.b } := rfl
@[simp] theorem rememberPortB_pram (s : State) :
    (s.rememberPortB).pram = s.pram := rfl
@[simp] theorem rememberPortB_nextVbl (s : State) :
    (s.rememberPortB).nextVbl = s.nextVbl := rfl
@[simp] theorem rememberPortB_nextSec (s : State) :
    (s.rememberPortB).nextSec = s.nextSec := rfl
@[simp] theorem rememberPortB_nextAdb (s : State) :
    (s.rememberPortB).nextAdb = s.nextAdb := rfl
@[simp] theorem rememberPortB_now (s : State) :
    (s.rememberPortB).now = s.now := rfl
@[simp] theorem rememberPortB_params (s : State) :
    (s.rememberPortB).params = s.params := rfl
@[simp] theorem rememberPortB_lines (s : State) :
    (s.rememberPortB).lines = s.lines := rfl
@[simp] theorem rememberPortB_pending (s : State) :
    (s.rememberPortB).pending = s.pending := rfl
@[simp] theorem rememberPortB_adbScript (s : State) :
    (s.rememberPortB).adbScript = s.adbScript := rfl
@[simp] theorem rememberPortB_adbCalls (s : State) :
    (s.rememberPortB).adbCalls = s.adbCalls := rfl
@[simp] theorem rememberPortB_outputs (s : State) :
    (s.rememberPortB).outputs = s.outputs := rfl

/-! ## Stores that depend on a flag -/

@[simp] theorem pramStore_via1 (s : State) (i : Nat) (v : Byte) :
    (s.pramStore i v).via1 = s.via1 := by unfold State.pramStore; split <;> rfl
@[simp] theorem pramStore_via2 (s : State) (i : Nat) (v : Byte) :
    (s.pramStore i v).via2 = s.via2 := by unfold State.pramStore; split <;> rfl
@[simp] theorem pramStore_rtc (s : State) (i : Nat) (v : Byte) :
    (s.pramStore i v).rtc = s.rtc := by unfold State.pramStore; split <;> rfl
@[simp] theorem pramStore_nextVbl (s : State) (i : Nat) (v : Byte) :
    (s.pramStore i v).nextVbl = s.nextVbl := by unfold State.pramStore; split <;> rfl
@[simp] theorem pramStore_nextSec (s : State) (i : Nat) (v : Byte) :
    (s.pramStore i v).nextSec = s.nextSec := by unfold State.pramStore; split <;> rfl
@[simp] theorem pramStore_nextAdb (s : State) (i : Nat) (v : Byte) :
    (s.pramStore i v).nextAdb = s.nextAdb := by unfold State.pramStore; split <;> rfl
@[simp] theorem pramStore_now (s : State) (i : Nat) (v : Byte) :
    (s.pramStore i v).now = s.now := by unfold State.pramStore; split <;> rfl
@[simp] theorem pramStore_params (s : State) (i : Nat) (v : Byte) :
    (s.pramStore i v).params = s.params := by unfold State.pramStore; split <;> rfl
@[simp] theorem pramStore_lines (s : State) (i : Nat) (v : Byte) :
    (s.pramStore i v).lines = s.lines := by unfold State.pramStore; split <;> rfl
@[simp] theorem pramStore_pending (s : State) (i : Nat) (v : Byte) :
    (s.pramStore i v).pending = s.pending := by unfold State.pramStore; split <;> rfl
@[simp] theorem pramStore_adbScript (s : State) (i : Nat) (v : Byte) :
    (s.pramStore i v).adbScript = s.adbScript := by unfold State.pramStore; split <;> rfl
@[simp] theorem pramStore_adbCalls (s : State) (i : Nat) (v : Byte) :
    (s.pramStore i v).adbCalls = s.adbCalls := by unfold State.pramStore; split <;> rfl
@[simp] theorem pramStore_outputs (s : State) (i : Nat) (v : Byte) :
    (s.pramStore i v).outputs = s.outputs := by unfold State.pramStore; split <;> rfl

theorem pramStore_pram (s : State) (i : Nat) (v : Byte) :
    (s.pramStore i v).pram = if s.rtc.wprotect then s.pram else Memory.write s.pram i v := by
  unfold State.pramStore; split <;> rfl

end Sys2Proof.Machine
end

