-- ==== Sys2Proof/Laws/Ops.lean ====
section
/-! SUPPORT. One lemma for each shared operation, which says once what it does: bits of a port or
of the flags, bytes of a count, the frame of the sequencer and of the ADB transfer. -/

namespace Sys2Proof.Machine

/-! ## Absolute addresses -/

theorem inWindow_iff {p : Params} {bank : BankId} {addr : Nat} :
    inWindow p bank addr = true ↔
      windowBase p bank ≤ addr ∧ addr < windowBase p bank + 0x2000 := by
  simp only [inWindow, Bool.and_eq_true, decide_eq_true_eq]
  rfl

/-- An address reaches a bank exactly when it stands in the bank's window and not in the other's
(R63). -/
theorem bankAt_eq_some {p : Params} {addr : Nat} {bank : BankId} :
    bankAt p addr = some bank ↔
      inWindow p bank addr = true ∧ ∀ other, other ≠ bank → inWindow p other addr = false := by
  unfold bankAt
  constructor
  · intro h
    split at h <;> cases h
    · exact ⟨by assumption, fun o ho => by cases o <;> first | assumption | exact absurd rfl ho⟩
    · exact ⟨by assumption, fun o ho => by cases o <;> first | assumption | exact absurd rfl ho⟩
  · rintro ⟨h, ho⟩
    cases bank
    · rw [h, ho .via2 (by decide)]
    · rw [h, ho .via1 (by decide)]

/-- What an absolute access does: it reaches the one bank whose window holds its address, at the
offset from that bank's base. -/
theorem accessAt_eq_some {p : Params} {write : Bool} {addr size : Nat} {data : Byte}
    {a : BusAccess} (h : accessAt p write addr size data = some a) :
    bankAt p addr = some a.bank ∧ windowBase p a.bank + a.addr = addr ∧ a.addr < 0x2000 ∧
      a.write = write ∧ a.size = size ∧ a.data = data := by
  obtain ⟨bank, hb, rfl⟩ := Option.map_eq_some_iff.1 h
  have hw := inWindow_iff.1 (bankAt_eq_some.1 hb).1
  exact ⟨hb, by dsimp only; omega, by dsimp only; omega, rfl, rfl, rfl⟩

/-- With the base at a multiple of the window the absolute address and the offset decode alike
(R61). -/
theorem decodeBus_absolute (bank : BankId) (write : Bool) (n offset size : Nat) (data : Byte) :
    decodeBus ⟨bank, write, n * 0x2000 + offset, size, data⟩ =
      decodeBus ⟨bank, write, offset, size, data⟩ := by
  have h : BitVec.ofNat 13 (n * 0x2000 + offset) = BitVec.ofNat 13 offset := by
    apply BitVec.eq_of_toNat_eq
    simp only [BitVec.toNat_ofNat]
    omega
  simp only [decodeBus, BusAccess.word, h]

/-! ## Ports and counts -/

/-- A masked store, bit by bit (R111, R141). -/
theorem maskedStore_bit (old dir data : Byte) (k : Nat) :
    (maskedStore old dir data).getLsbD k =
      if dir.getLsbD k then data.getLsbD k else old.getLsbD k := by
  simp only [maskedStore, BitVec.getLsbD_or, BitVec.getLsbD_and, BitVec.getLsbD_not]
  by_cases hk : k < 8
  · cases hd : dir.getLsbD k <;> simp [hk]
  · simp [BitVec.getLsbD_of_ge old k (by omega), BitVec.getLsbD_of_ge dir k (by omega),
      BitVec.getLsbD_of_ge data k (by omega)]

/-- A second masked store of the same byte changes nothing. -/
theorem maskedStore_idem (old dir data : Byte) :
    maskedStore (maskedStore old dir data) dir data = maskedStore old dir data := by
  apply BitVec.eq_of_getLsbD_eq
  intro k _
  simp only [maskedStore_bit]
  split <;> rfl

theorem lowByte_toNat (c : Count) : (lowByte c).toNat = c.toNat % 256 := by
  simp [lowByte, BitVec.extractLsb'_toNat]

theorem highByte_toNat (c : Count) : (highByte c).toNat = c.toNat / 256 := by
  have := c.isLt
  simp only [highByte, BitVec.extractLsb'_toNat, Nat.shiftRight_eq_div_pow]
  omega

theorem joinBytes_toNat (h l : Byte) : (joinBytes h l).toNat = h.toNat * 256 + l.toNat := by
  have := l.isLt
  have := h.isLt
  simp only [joinBytes, BitVec.toNat_append]
  rw [← Nat.shiftLeft_add_eq_or_of_lt l.isLt, Nat.shiftLeft_eq]

@[simp] theorem lowByte_joinBytes (h l : Byte) : lowByte (joinBytes h l) = l := by
  apply BitVec.eq_of_toNat_eq
  have := l.isLt
  rw [lowByte_toNat, joinBytes_toNat]; omega

@[simp] theorem highByte_joinBytes (h l : Byte) : highByte (joinBytes h l) = h := by
  apply BitVec.eq_of_toNat_eq
  have := l.isLt
  rw [highByte_toNat, joinBytes_toNat]; omega

/-! ## Flags -/

theorem rtcEnabled_bit : ∀ b : Byte, rtcEnabled b = !b.getLsbD 2 := by decide
theorem hostToChip_bit : ∀ d : Byte, hostToChip d = d.getLsbD 0 := by decide
theorem adbInt_bit : ∀ b : Byte, adbInt b = b.getLsbD 3 := by decide
theorem shiftOut_bit : ∀ r : Byte, shiftOut r = r.getLsbD 4 := by decide
theorem t1Freerun_bit : ∀ r : Byte, t1Freerun r = r.getLsbD 6 := by decide

theorem clk_bit : ∀ b : Byte, (b &&& Config.rtcClkMask == 0) = !b.getLsbD 1 := by decide

theorem risingEdge_bit (last b : Byte) :
    risingEdge last b = (!last.getLsbD 1 && b.getLsbD 1) := by
  simp only [risingEdge, bne, clk_bit, Bool.not_not]

theorem fallingEdge_bit (last b : Byte) :
    fallingEdge last b = (last.getLsbD 1 && !b.getLsbD 1) := by
  simp only [fallingEdge, bne, clk_bit, Bool.not_not]

theorem power_bit : ∀ b : Byte, (b &&& Config.powerMask == 0) = !b.getLsbD 2 := by decide

theorem powerLow_bit (v : Via) : powerLow v = (v.dirb.getLsbD 2 && !v.b.getLsbD 2) := by
  simp only [powerLow, bne, power_bit, Bool.not_not]

/-- The RTC data bit alone is written (R155). -/
theorem withRtcData_bit (b : Byte) (v : Bool) (k : Nat) :
    (withRtcData b v).getLsbD k = if k = 0 then v else b.getLsbD k := by
  by_cases hk : k < 8
  · interval_cases k <;> cases v <;> simp [withRtcData, Config.rtcDataMask]
  · rw [BitVec.getLsbD_of_ge _ _ (by omega), BitVec.getLsbD_of_ge _ _ (by omega)]
    rw [if_neg (by omega)]

/-- The ADB-interrupt bit alone is written (R195). -/
theorem withAdbInt_bit (b : Byte) (v : Bool) (k : Nat) :
    (withAdbInt b v).getLsbD k = if k = 3 then v else b.getLsbD k := by
  by_cases hk : k < 8
  · interval_cases k <;> cases v <;> simp [withAdbInt, Config.adbIntMask]
  · rw [BitVec.getLsbD_of_ge _ _ (by omega), BitVec.getLsbD_of_ge _ _ (by omega)]
    rw [if_neg (by omega)]

/-- An acknowledge, flag by flag (R137). -/
theorem acknowledge_bit (ifr : BitVec 7) (data : Byte) (k : Nat) (hk : k < 7) :
    (acknowledge ifr data).getLsbD k =
      (ifr.getLsbD k && !(data.getLsbD 7 && data.getLsbD k)) := by
  unfold acknowledge irqSet
  split
  · next h => rw [h]; simp [irqBits, hk]
  · next h => rw [Bool.eq_false_iff.mpr h]; simp

/-- A write of IER, enable by enable (R139). -/
theorem setEnables_bit (ier : BitVec 7) (data : Byte) (k : Nat) (hk : k < 7) :
    (setEnables ier data).getLsbD k =
      if data.getLsbD k then data.getLsbD 7 else ier.getLsbD k := by
  unfold setEnables irqSet
  split
  · next h => rw [h]; cases hd : data.getLsbD k <;> simp [irqBits, hk, hd]
  · next h =>
    rw [Bool.eq_false_iff.mpr h]; cases hd : data.getLsbD k <;> simp [irqBits, hk, hd]

/-! ## The sequencer -/

/-- Every row of format RTC completes and changes nothing but the sequencer and the PRAM (R158). -/
theorem execRtcCommand_frame (i : Instr) (s : State) :
    ∃ t, execRtcCommand i s = .next t ∧ OnlySequencerAndPram s t := by
  cases i <;>
    simp only [execRtcCommand, execRtcRdsec0, execRtcRdsec1, execRtcRdsec2, execRtcRdsec3,
      execRtcRdpram, execRtcRdpramDead, execRtcXrdsel, execRtcRdnop, execRtcWrcmd, execRtcXrd,
      execRtcXwr, execRtcWrpram, execRtcWrpramDead, execRtcWprot, execRtcWrsec0, execRtcWrsec1,
      execRtcWrsec2, execRtcWrsec3, execRtcWrnop] <;>
    (try split) <;>
    refine ⟨_, rfl, ?_⟩ <;>
    simp only [OnlySequencerAndPram, State.pramStore] <;>
    (try split) <;> rfl

/-- The rows of format RTC mean the same inside a `WR.ORB` as in the opcode table. -/
theorem execRtcCommand_eq_exec (i : Instr) (s : State) (h : isRtc i = true) :
    execRtcCommand i s = exec i s := by
  cases i <;> first | rfl | simp [isRtc] at h

/-- `Dispatch` writes no register of either bank and no flag (R158). -/
theorem dispatch_frame (s : State) (byte : Byte) : OnlySequencerAndPram s (s.dispatch byte) := by
  obtain ⟨t, ht, hf⟩ := execRtcCommand_frame (decodeRtc s.rtc.cmd byte) s
  simp only [State.dispatch, ht, nextOr]
  exact hf

/-- `RtcStep` changes nothing but the sequencer, the PRAM and the RTC data bit (R155, R158). -/
theorem rtcStep_frame (s : State) :
    ∃ r p b, s.rtcStep = { s with rtc := r, pram := p, via1 := { s.via1 with b := b } } ∧
      ∀ k, k ≠ 0 → b.getLsbD k = s.via1.b.getLsbD k := by
  have move : ∃ r b, s.moveBit = { s with rtc := r, via1 := { s.via1 with b := b } } ∧
      ∀ k, k ≠ 0 → b.getLsbD k = s.via1.b.getLsbD k := by
    unfold State.moveBit State.takeBit State.presentBit
    split
    · split
      · exact ⟨_, s.via1.b, rfl, fun _ _ => rfl⟩
      · exact ⟨s.rtc, s.via1.b, rfl, fun _ _ => rfl⟩
    · split
      · split
        · refine ⟨_, _, rfl, fun k hk => ?_⟩
          rw [withRtcData_bit, if_neg hk]
        · exact ⟨s.rtc, s.via1.b, rfl, fun _ _ => rfl⟩
      · exact ⟨s.rtc, s.via1.b, rfl, fun _ _ => rfl⟩
  unfold State.rtcStep
  split
  · obtain ⟨r, b, hm, hb⟩ := move
    unfold State.completeByte
    split
    · have hd := dispatch_frame s.moveBit s.moveBit.rtc.dataOut
      unfold OnlySequencerAndPram at hd
      refine ⟨(s.moveBit.completeByte).rtc, (s.moveBit.dispatch s.moveBit.rtc.dataOut).pram, b,
        ?_, hb⟩
      unfold State.completeByte
      rw [if_pos (by assumption)]
      generalize s.moveBit.dispatch s.moveBit.rtc.dataOut = d at hd
      rw [hd, hm]
      rfl
    · exact ⟨r, s.pram, b, hm, hb⟩
  · exact ⟨s.rtc, s.pram, s.via1.b, rfl, fun _ _ => rfl⟩

/-! ## The ADB collaborator -/

/-- A transfer makes one call, takes one answer, and changes the shift register and the
ADB-interrupt bit alone (R192, R193, R195). -/
theorem adbTransfer_frame (s : State) :
    ∃ call sr b, s.adbTransfer =
        { s.adbAsked call with via1 := { s.via1 with sr := sr, b := b } } ∧
      ∀ k, k ≠ 3 → b.getLsbD k = s.via1.b.getLsbD k := by
  unfold State.adbTransfer State.adbSend State.adbReceive
  split
  · refine ⟨_, s.via1.sr, _, rfl, fun k hk => ?_⟩
    rw [withAdbInt_bit, if_neg hk]; rfl
  · refine ⟨_, _, _, rfl, fun k hk => ?_⟩
    rw [withAdbInt_bit, if_neg hk]; rfl

/-- A poll makes at most one call and changes the shift register and the ADB-interrupt bit alone
(R196). -/
theorem adbPoll_frame (s : State) :
    s.adbPoll = s ∨
    ∃ call sr b, s.adbPoll =
        { s.adbAsked call with via1 := { s.via1 with sr := sr, b := b } } ∧
      ∀ k, k ≠ 3 → b.getLsbD k = s.via1.b.getLsbD k := by
  unfold State.adbPoll
  split
  · right
    dsimp only
    split
    · refine ⟨_, _, _, rfl, fun k hk => ?_⟩
      rw [withAdbInt_bit, if_neg hk]; rfl
    · exact ⟨_, _, s.via1.b, rfl, fun _ _ => rfl⟩
  · exact .inl rfl

/-! ## Fan-ins -/

/-- A stimulus decodes to a fan-in step of `bank` exactly when it comes from a source there. -/
theorem fansIn_iff {bank : BankId} {st : Stimulus} :
    fansIn bank st = true ↔ ∃ line level, decodeStimulus st = .ok (.extirq bank line level) := by
  unfold fansIn
  split
  · next b line level h => simp [h, eq_comm]
  · next h => exact ⟨(by cases ·), fun ⟨line, level, e⟩ => absurd e (h bank line level)⟩

/-- With no source at the fan-in sink of a bank no `EXTIRQ` step of it is taken, and what stays on
offer has none either (R237). -/
theorem no_extirq_of_fanInSilent {s : State} {bank : BankId} {st : Stimulus}
    {rest : List Stimulus} (h : s.fanInSilent bank = true) (hp : s.pending = st :: rest) :
    (∀ line level, decodeStimulus st ≠ .ok (.extirq bank line level)) ∧
    ({ s with pending := rest } : State).fanInSilent bank = true := by
  simp only [State.fanInSilent, hp, List.all_cons, Bool.and_eq_true, Bool.not_eq_true'] at h
  refine ⟨fun line level e => ?_, h.2⟩
  simp [fansIn_iff.2 ⟨line, level, e⟩] at h

/-! ## Every instruction -/

/-- What a step can do: wait, run the decoded stimulus, or find none. -/
theorem step_cases {s : State} {out : Result} (h : step s = out) :
    (s.pending = [] ∧ out = .next s) ∨
    (∃ st rest i, s.pending = st :: rest ∧ decodeStimulus st = .ok i ∧
      out = exec i { s with pending := rest }) ∨
    (∃ st rest why, s.pending = st :: rest ∧ decodeStimulus st = .error why ∧
      out = .refused (.undecodable why)) := by
  unfold step at h
  split at h
  · next hp => exact .inl ⟨hp, h.symm⟩
  · next st rest hp =>
    split at h
    · next i hd => exact .inr (.inl ⟨st, rest, i, hp, hd, h.symm⟩)
    · next why hd => exact .inr (.inr ⟨st, rest, why, hp, hd, h.symm⟩)

end Sys2Proof.Machine
end

