-- ==== Sys2Proof/Laws/PerInstr.lean ====
section
/-! SUPPORT. The family `RowOfEncoding`: what the encoder writes for a well-formed instruction meets
the mask and the match of the instruction's row in spec/opcode_table.json, which are copied here
from the table. The two dead rows, which no encoding stands for (R166), are held to it too. -/

set_option Elab.async false

namespace Sys2Proof.Laws.RowOfEncoding

/-- A row's mask and match, and what they are tested on (R102): the transaction word, the completed
byte, the pending command, or the event code. -/
inductive Row where
  | bus (mask pattern : BitVec 14)
  | first (mask pattern : Byte)
  | xread (mask pattern : Byte)
  | wdata (mask pattern : Byte)
  | event (mask pattern : BitVec 4)

/-- The table. -/
def row : Instr → Row
  | .rdOrb _ => .bus 0x3E00 0x0000
  | .wrOrb _ _ => .bus 0x3E00 0x2000
  | .rdOrah _ => .bus 0x3E00 0x0200
  | .wrOrah _ _ => .bus 0x3E00 0x2200
  | .rdDdrb _ => .bus 0x3E00 0x0400
  | .wrDdrb _ _ => .bus 0x3E00 0x2400
  | .rdDdra _ => .bus 0x3E00 0x0600
  | .wrDdra _ _ => .bus 0x3E00 0x2600
  | .rdT1cl _ => .bus 0x3E00 0x0800
  | .wrT1cl _ _ => .bus 0x3E00 0x2800
  | .rdT1ch _ => .bus 0x3E00 0x0A00
  | .wrT1ch _ _ => .bus 0x3E00 0x2A00
  | .rdT1ll _ => .bus 0x3E00 0x0C00
  | .wrT1ll _ _ => .bus 0x3E00 0x2C00
  | .rdT1lh _ => .bus 0x3E00 0x0E00
  | .wrT1lh _ _ => .bus 0x3E00 0x2E00
  | .rdT2cl _ => .bus 0x3E00 0x1000
  | .wrT2cl _ _ => .bus 0x3E00 0x3000
  | .rdT2ch _ => .bus 0x3E00 0x1200
  | .wrT2ch _ _ => .bus 0x3E00 0x3200
  | .rdSr _ => .bus 0x3E00 0x1400
  | .wrSr _ _ => .bus 0x3E00 0x3400
  | .rdAcr _ => .bus 0x3E00 0x1600
  | .wrAcr _ _ => .bus 0x3E00 0x3600
  | .rdPcr _ => .bus 0x3E00 0x1800
  | .wrPcr _ _ => .bus 0x3E00 0x3800
  | .rdIfr _ => .bus 0x3E00 0x1A00
  | .wrIfr _ _ => .bus 0x3E00 0x3A00
  | .rdIer _ => .bus 0x3E00 0x1C00
  | .wrIer _ _ => .bus 0x3E00 0x3C00
  | .rdOra _ => .bus 0x3E00 0x1E00
  | .wrOra _ _ => .bus 0x3E00 0x3E00
  | .rtcRdsec0 => .first 0xFF 0x81
  | .rtcRdsec1 => .first 0xFF 0x85
  | .rtcRdsec2 => .first 0xFF 0x89
  | .rtcRdsec3 => .first 0xFF 0x8D
  | .rtcRdpram _ => .first 0xF3 0xA1
  | .rtcRdpramDead _ => .first 0xF3 0xA1
  | .rtcXrdsel _ => .first 0xF8 0xB8
  | .rtcRdnop _ => .first 0x80 0x80
  | .rtcWrcmd _ => .first 0x80 0x00
  | .rtcXrd _ _ => .xread 0xF8 0xB8
  | .rtcXwr _ _ => .wdata 0xF8 0x38
  | .rtcWrpram _ _ => .wdata 0xF3 0x21
  | .rtcWrpramDead _ _ => .wdata 0xF3 0x21
  | .rtcWprot _ => .wdata 0xFF 0x35
  | .rtcWrsec0 _ => .wdata 0xFF 0x01
  | .rtcWrsec1 _ => .wdata 0xFF 0x05
  | .rtcWrsec2 _ => .wdata 0xFF 0x09
  | .rtcWrsec3 _ => .wdata 0xFF 0x0D
  | .rtcWrnop _ _ => .wdata 0x00 0x00
  | .reset => .event 0xF 0x0
  | .advance _ => .event 0xF 0x1
  | .fireVbl => .event 0xF 0x2
  | .fireSec => .event 0xF 0x3
  | .fireAdbpoll => .event 0xF 0x4
  | .tickT1 _ => .event 0xF 0x5
  | .tickT2 _ => .event 0xF 0x6
  | .extirq _ _ _ => .event 0xF 0x7

/-- The encoding is of the row's format and context, and the bits under its mask are its match. -/
def Row.meets : Row → Encoded → Bool
  | .bus mask pattern, .stimulus (.bus a) => a.size == 1 && a.word &&& mask == pattern
  | .first mask pattern, .rtc cmd byte => cmd == 0x00 && byte &&& mask == pattern
  | .xread mask pattern, .rtc cmd _ => cmd != 0x00 && cmd.getLsbD 7 && cmd &&& mask == pattern
  | .wdata mask pattern, .rtc cmd _ =>
    cmd != 0x00 && !cmd.getLsbD 7 && cmd &&& mask == pattern
  | .event mask pattern, .stimulus (.event e) => e.code &&& mask == pattern
  | _, _ => false

/-- The instruction is a dead row (R166). -/
def isDead : Instr → Bool
  | .rtcRdpramDead _ | .rtcWrpramDead _ _ => true
  | _ => false

/-- The family's statement. -/
def Statement (i : Instr) : Prop :=
  (i.wellFormed || isDead i) = true → (row i).meets (encode i) = true

theorem rdOrb (bank : BankId) : Statement (.rdOrb bank) := by
  simp [Statement, row, Row.meets, encode, busRead, BusAccess.word]

theorem wrOrb (bank : BankId) (data : Byte) : Statement (.wrOrb bank data) := by
  simp [Statement, row, Row.meets, encode, busWrite, BusAccess.word]

theorem rdOrah (bank : BankId) : Statement (.rdOrah bank) := by
  simp [Statement, row, Row.meets, encode, busRead, BusAccess.word]

theorem wrOrah (bank : BankId) (data : Byte) : Statement (.wrOrah bank data) := by
  simp [Statement, row, Row.meets, encode, busWrite, BusAccess.word]

theorem rdDdrb (bank : BankId) : Statement (.rdDdrb bank) := by
  simp [Statement, row, Row.meets, encode, busRead, BusAccess.word]

theorem wrDdrb (bank : BankId) (data : Byte) : Statement (.wrDdrb bank data) := by
  simp [Statement, row, Row.meets, encode, busWrite, BusAccess.word]

theorem rdDdra (bank : BankId) : Statement (.rdDdra bank) := by
  simp [Statement, row, Row.meets, encode, busRead, BusAccess.word]

theorem wrDdra (bank : BankId) (data : Byte) : Statement (.wrDdra bank data) := by
  simp [Statement, row, Row.meets, encode, busWrite, BusAccess.word]

theorem rdT1cl (bank : BankId) : Statement (.rdT1cl bank) := by
  simp [Statement, row, Row.meets, encode, busRead, BusAccess.word]

theorem wrT1cl (bank : BankId) (data : Byte) : Statement (.wrT1cl bank data) := by
  simp [Statement, row, Row.meets, encode, busWrite, BusAccess.word]

theorem rdT1ch (bank : BankId) : Statement (.rdT1ch bank) := by
  simp [Statement, row, Row.meets, encode, busRead, BusAccess.word]

theorem wrT1ch (bank : BankId) (data : Byte) : Statement (.wrT1ch bank data) := by
  simp [Statement, row, Row.meets, encode, busWrite, BusAccess.word]

theorem rdT1ll (bank : BankId) : Statement (.rdT1ll bank) := by
  simp [Statement, row, Row.meets, encode, busRead, BusAccess.word]

theorem wrT1ll (bank : BankId) (data : Byte) : Statement (.wrT1ll bank data) := by
  simp [Statement, row, Row.meets, encode, busWrite, BusAccess.word]

theorem rdT1lh (bank : BankId) : Statement (.rdT1lh bank) := by
  simp [Statement, row, Row.meets, encode, busRead, BusAccess.word]

theorem wrT1lh (bank : BankId) (data : Byte) : Statement (.wrT1lh bank data) := by
  simp [Statement, row, Row.meets, encode, busWrite, BusAccess.word]

theorem rdT2cl (bank : BankId) : Statement (.rdT2cl bank) := by
  simp [Statement, row, Row.meets, encode, busRead, BusAccess.word]

theorem wrT2cl (bank : BankId) (data : Byte) : Statement (.wrT2cl bank data) := by
  simp [Statement, row, Row.meets, encode, busWrite, BusAccess.word]

theorem rdT2ch (bank : BankId) : Statement (.rdT2ch bank) := by
  simp [Statement, row, Row.meets, encode, busRead, BusAccess.word]

theorem wrT2ch (bank : BankId) (data : Byte) : Statement (.wrT2ch bank data) := by
  simp [Statement, row, Row.meets, encode, busWrite, BusAccess.word]

theorem rdSr (bank : BankId) : Statement (.rdSr bank) := by
  simp [Statement, row, Row.meets, encode, busRead, BusAccess.word]

theorem wrSr (bank : BankId) (data : Byte) : Statement (.wrSr bank data) := by
  simp [Statement, row, Row.meets, encode, busWrite, BusAccess.word]

theorem rdAcr (bank : BankId) : Statement (.rdAcr bank) := by
  simp [Statement, row, Row.meets, encode, busRead, BusAccess.word]

theorem wrAcr (bank : BankId) (data : Byte) : Statement (.wrAcr bank data) := by
  simp [Statement, row, Row.meets, encode, busWrite, BusAccess.word]

theorem rdPcr (bank : BankId) : Statement (.rdPcr bank) := by
  simp [Statement, row, Row.meets, encode, busRead, BusAccess.word]

theorem wrPcr (bank : BankId) (data : Byte) : Statement (.wrPcr bank data) := by
  simp [Statement, row, Row.meets, encode, busWrite, BusAccess.word]

theorem rdIfr (bank : BankId) : Statement (.rdIfr bank) := by
  simp [Statement, row, Row.meets, encode, busRead, BusAccess.word]

theorem wrIfr (bank : BankId) (data : Byte) : Statement (.wrIfr bank data) := by
  simp [Statement, row, Row.meets, encode, busWrite, BusAccess.word]

theorem rdIer (bank : BankId) : Statement (.rdIer bank) := by
  simp [Statement, row, Row.meets, encode, busRead, BusAccess.word]

theorem wrIer (bank : BankId) (data : Byte) : Statement (.wrIer bank data) := by
  simp [Statement, row, Row.meets, encode, busWrite, BusAccess.word]

theorem rdOra (bank : BankId) : Statement (.rdOra bank) := by
  simp [Statement, row, Row.meets, encode, busRead, BusAccess.word]

theorem wrOra (bank : BankId) (data : Byte) : Statement (.wrOra bank data) := by
  simp [Statement, row, Row.meets, encode, busWrite, BusAccess.word]

theorem rtcRdsec0 : Statement .rtcRdsec0 := fun _ => rfl

theorem rtcRdsec1 : Statement .rtcRdsec1 := fun _ => rfl

theorem rtcRdsec2 : Statement .rtcRdsec2 := fun _ => rfl

theorem rtcRdsec3 : Statement .rtcRdsec3 := fun _ => rfl

theorem rtcRdpram (aa : BitVec 2) : Statement (.rtcRdpram aa) := by
  simp only [Statement, Instr.wellFormed, isDead, row, Row.meets, encode]
  revert aa; decide

theorem rtcRdpramDead (aa : BitVec 2) : Statement (.rtcRdpramDead aa) := by
  simp only [Statement, Instr.wellFormed, isDead, row, Row.meets, encode]
  revert aa; decide

theorem rtcXrdsel (sector : BitVec 3) : Statement (.rtcXrdsel sector) := by
  simp only [Statement, Instr.wellFormed, isDead, row, Row.meets, encode]
  revert sector; decide

theorem rtcRdnop (byte : Byte) : Statement (.rtcRdnop byte) := by
  simp only [Statement, Instr.wellFormed, isDead, isOtherRead, row, Row.meets, encode]
  revert byte; decide

theorem rtcWrcmd (code : BitVec 7) : Statement (.rtcWrcmd code) := by
  simp only [Statement, Instr.wellFormed, isDead, row, Row.meets, encode]
  revert code; decide

theorem rtcXrd (sector : BitVec 3) (addr : BitVec 5) : Statement (.rtcXrd sector addr) := by
  simp only [Statement, Instr.wellFormed, isDead, row, Row.meets, encode]
  revert sector; decide

theorem rtcXwr (sector : BitVec 3) (byte : Byte) : Statement (.rtcXwr sector byte) := by
  simp only [Statement, Instr.wellFormed, isDead, row, Row.meets, encode]
  revert sector; decide

theorem rtcWrpram (aa : BitVec 2) (data : Byte) : Statement (.rtcWrpram aa data) := by
  simp only [Statement, Instr.wellFormed, isDead, row, Row.meets, encode]
  revert aa; decide

theorem rtcWrpramDead (aa : BitVec 2) (data : Byte) : Statement (.rtcWrpramDead aa data) := by
  simp only [Statement, Instr.wellFormed, isDead, row, Row.meets, encode]
  revert aa; decide

theorem rtcWprot (protect : Bool) : Statement (.rtcWprot protect) := fun _ => rfl

theorem rtcWrsec0 (data : Byte) : Statement (.rtcWrsec0 data) := fun _ => rfl

theorem rtcWrsec1 (data : Byte) : Statement (.rtcWrsec1 data) := fun _ => rfl

theorem rtcWrsec2 (data : Byte) : Statement (.rtcWrsec2 data) := fun _ => rfl

theorem rtcWrsec3 (data : Byte) : Statement (.rtcWrsec3 data) := fun _ => rfl

theorem rtcWrnop (cmd : Byte) (data : Byte) : Statement (.rtcWrnop cmd data) := by
  simp only [Statement, Instr.wellFormed, isDead, isOtherWrite, row, Row.meets, encode]
  revert cmd; decide

theorem reset : Statement .reset := fun _ => rfl

theorem advance (dt : Nat) : Statement (.advance dt) := by
  simp [Statement, row, Row.meets, encode, eventCall]

theorem fireVbl : Statement .fireVbl := fun _ => rfl

theorem fireSec : Statement .fireSec := fun _ => rfl

theorem fireAdbpoll : Statement .fireAdbpoll := fun _ => rfl

theorem tickT1 (bank : BankId) : Statement (.tickT1 bank) := by
  simp [Statement, row, Row.meets, encode, eventCall]

theorem tickT2 (bank : BankId) : Statement (.tickT2 bank) := by
  simp [Statement, row, Row.meets, encode, eventCall]

theorem extirq (bank : BankId) (line : BitVec 3) (level : Bool) :
    Statement (.extirq bank line level) := by
  simp [Statement, row, Row.meets, encode]

end Sys2Proof.Laws.RowOfEncoding
end

