-- ==== Sys2Proof/Tests/Slice0.lean ====
section
/-! SUPPORT. The model's own tests. Expected values are the test vectors of 95_test_vectors.md (TV,
P) or the examples of the rules named; each test is one step on a small state. At the end, one
witness for every statement that has hypotheses. -/

set_option Elab.async false

namespace Sys2Proof.Tests

open Sys2Proof.Machine

/-! ## Helpers -/

/-- The state with the alternative of both PRAM parameters: `(B >> 2) & 0x03` and stride 32. -/
def otherPram (s : State) : State :=
  { s with params := { s.params with lowPram := .twoBits, xpramStride := .thirtyTwo } }

/-- The state an instruction leaves, on the reset state changed by `f`. -/
def after (i : Instr) (f : State → State) : State := nextOr State.reset (exec i (f State.reset))

/-- VIA1 changed. -/
def via1 (f : Via → Via) (s : State) : State := { s with via1 := f s.via1 }

/-- VIA2 changed. -/
def via2 (f : Via → Via) (s : State) : State := { s with via2 := f s.via2 }

/-- The sequencer changed. -/
def seq (f : Rtc → Rtc) (s : State) : State := { s with rtc := f s.rtc }

/-- VIA1 as 95_test_vectors 2.6 starts: RTC pins and ADB state outputs, selected, clock low, and an
idle collaborator. -/
def selected (s : State) : State :=
  { s with
    via1 := { s.via1 with b := 0x38, dirb := 0x37 }
    rtc := { s.rtc with lastPortB := 0x38 }
    adbScript := [⟨0, false, 0x00⟩] }

/-- The collaborator's next answer. -/
def answer (ret : Int) (ok : Bool) (byte : Byte) (s : State) : State :=
  { s with adbScript := [⟨ret, ok, byte⟩] }

/-! ## Well-formedness: each check refuses a term -/

theorem test_wf_refuses_matched_read : (Instr.rtcRdnop 0x85).wellFormed = false := by decide
theorem test_wf_refuses_low_bank_read : (Instr.rtcRdnop 0xA9).wellFormed = false := by decide
theorem test_wf_refuses_designator : (Instr.rtcRdnop 0xBF).wellFormed = false := by decide
theorem test_wf_refuses_write_as_read : (Instr.rtcRdnop 0x11).wellFormed = false := by decide
theorem test_wf_refuses_idle_command : (Instr.rtcWrnop 0x00 0x00).wellFormed = false := by decide
theorem test_wf_refuses_extended_write : (Instr.rtcWrnop 0x3D 0x00).wellFormed = false := by decide
theorem test_wf_refuses_low_bank_write : (Instr.rtcWrnop 0x29 0x00).wellFormed = false := by decide
theorem test_wf_refuses_wprot : (Instr.rtcWrnop 0x35 0x00).wellFormed = false := by decide
theorem test_wf_refuses_seconds : (Instr.rtcWrnop 0x0D 0x00).wellFormed = false := by decide
theorem test_wf_refuses_read_as_write : (Instr.rtcWrnop 0x91 0x00).wellFormed = false := by decide
theorem test_wf_refuses_dead_read : (Instr.rtcRdpramDead 1).wellFormed = false := by decide
theorem test_wf_refuses_dead_write : (Instr.rtcWrpramDead 1 0).wellFormed = false := by decide

/-! ## Decoding: words written out from R82, R91 to R94 and R98 -/

theorem test_decode_reads :
    decodeTableWord 16 0b00000000000000 = some (.rdOrb .via1) ∧
    decodeTableWord 16 0b00001000000000 = some (.rdOrah .via1) ∧
    decodeTableWord 16 0b00010000000000 = some (.rdDdrb .via1) ∧
    decodeTableWord 16 0b00011000000000 = some (.rdDdra .via1) ∧
    decodeTableWord 16 0b00100000000000 = some (.rdT1cl .via1) ∧
    decodeTableWord 16 0b00101000000000 = some (.rdT1ch .via1) ∧
    decodeTableWord 16 0b00110000000000 = some (.rdT1ll .via1) ∧
    decodeTableWord 16 0b00111000000000 = some (.rdT1lh .via1) ∧
    decodeTableWord 16 0b01000000000000 = some (.rdT2cl .via1) ∧
    decodeTableWord 16 0b01001000000000 = some (.rdT2ch .via1) ∧
    decodeTableWord 16 0b01010000000000 = some (.rdSr .via1) ∧
    decodeTableWord 16 0b01011000000000 = some (.rdAcr .via1) ∧
    decodeTableWord 16 0b01100000000000 = some (.rdPcr .via1) ∧
    decodeTableWord 16 0b01101000000000 = some (.rdIfr .via1) ∧
    decodeTableWord 16 0b01110000000000 = some (.rdIer .via1) ∧
    decodeTableWord 16 0b01111000000000 = some (.rdOra .via1) := by decide

theorem test_decode_writes :
    decodeBus ⟨.via2, true, 0x0000, 1, 0x5A⟩ = .ok (.wrOrb .via2 0x5A) ∧
    decodeBus ⟨.via2, true, 0x0200, 1, 0x5A⟩ = .ok (.wrOrah .via2 0x5A) ∧
    decodeBus ⟨.via2, true, 0x0400, 1, 0x5A⟩ = .ok (.wrDdrb .via2 0x5A) ∧
    decodeBus ⟨.via2, true, 0x0600, 1, 0x5A⟩ = .ok (.wrDdra .via2 0x5A) ∧
    decodeBus ⟨.via2, true, 0x0800, 1, 0x5A⟩ = .ok (.wrT1cl .via2 0x5A) ∧
    decodeBus ⟨.via2, true, 0x0A00, 1, 0x5A⟩ = .ok (.wrT1ch .via2 0x5A) ∧
    decodeBus ⟨.via2, true, 0x0C00, 1, 0x5A⟩ = .ok (.wrT1ll .via2 0x5A) ∧
    decodeBus ⟨.via2, true, 0x0E00, 1, 0x5A⟩ = .ok (.wrT1lh .via2 0x5A) ∧
    decodeBus ⟨.via2, true, 0x1000, 1, 0x5A⟩ = .ok (.wrT2cl .via2 0x5A) ∧
    decodeBus ⟨.via2, true, 0x1200, 1, 0x5A⟩ = .ok (.wrT2ch .via2 0x5A) ∧
    decodeBus ⟨.via2, true, 0x1400, 1, 0x5A⟩ = .ok (.wrSr .via2 0x5A) ∧
    decodeBus ⟨.via2, true, 0x1600, 1, 0x5A⟩ = .ok (.wrAcr .via2 0x5A) ∧
    decodeBus ⟨.via2, true, 0x1800, 1, 0x5A⟩ = .ok (.wrPcr .via2 0x5A) ∧
    decodeBus ⟨.via2, true, 0x1A00, 1, 0x5A⟩ = .ok (.wrIfr .via2 0x5A) ∧
    decodeBus ⟨.via2, true, 0x1C00, 1, 0x5A⟩ = .ok (.wrIer .via2 0x5A) ∧
    decodeBus ⟨.via2, true, 0x1E00, 1, 0x5A⟩ = .ok (.wrOra .via2 0x5A) := by decide

/-- TV10 to TV17, and an absolute address of the second window of R66. -/
theorem test_decode_ignores_other_address_bits :
    decodeTableWord 16 0x01FF = some (.rdOrb .via1) ∧
    decodeTableWord 16 0x3BFF = some (.wrIfr .via1 0x00) ∧
    decodeTableWord 16 0x3FFF = some (.wrOra .via1 0x00) ∧
    decodeBus ⟨.via2, false, 0x50F02000 + 0x1A00, 1, 0x00⟩ = .ok (.rdIfr .via2) := by decide

theorem test_decode_rtc_first :
    decodeRtc 0 0b10000001 = .rtcRdsec0 ∧ decodeRtc 0 0b10000101 = .rtcRdsec1 ∧
    decodeRtc 0 0b10001001 = .rtcRdsec2 ∧ decodeRtc 0 0b10001101 = .rtcRdsec3 ∧
    decodeRtc 0 0b10101101 = .rtcRdpram 3 ∧ decodeRtc 0 0b10111010 = .rtcXrdsel 2 ∧
    decodeRtc 0 0b11000001 = .rtcRdnop 0xC1 ∧ decodeRtc 0 0b00100101 = .rtcWrcmd 0x25 := by decide

theorem test_decode_rtc_pending :
    decodeRtc 0b10111010 0b10010111 = .rtcXrd 2 5 ∧
    decodeRtc 0b00111010 0x77 = .rtcXwr 2 0x77 ∧
    decodeRtc 0b00101001 0xC2 = .rtcWrpram 2 0xC2 ∧
    decodeRtc 0b00110101 0x01 = .rtcWprot true ∧ decodeRtc 0b00110101 0xFE = .rtcWprot false ∧
    decodeRtc 0b00000001 0xAA = .rtcWrsec0 0xAA ∧ decodeRtc 0b00000101 0xAA = .rtcWrsec1 0xAA ∧
    decodeRtc 0b00001001 0xAA = .rtcWrsec2 0xAA ∧ decodeRtc 0b00001101 0xAA = .rtcWrsec3 0xAA ∧
    decodeRtc 0b00110001 0x80 = .rtcWrnop 0x31 0x80 := by decide

/-- The dead rows share the words of the live ones, which are taken (R166). -/
theorem test_decode_dead_rows_never :
    decode (encode (.rtcRdpramDead 1)) = .ok (.rtcRdpram 1) ∧
    decode (encode (.rtcWrpramDead 1 0x42)) = .ok (.rtcWrpram 1 0x42) := by decide

theorem test_decode_events :
    decodeEvent ⟨0b0000, 9, .via2, 3, true⟩ = .ok .reset ∧
    decodeEvent ⟨0b0001, 9, .via2, 3, true⟩ = .ok (.advance 9) ∧
    decodeEvent ⟨0b0010, 9, .via2, 3, true⟩ = .ok .fireVbl ∧
    decodeEvent ⟨0b0011, 9, .via2, 3, true⟩ = .ok .fireSec ∧
    decodeEvent ⟨0b0100, 9, .via2, 3, true⟩ = .ok .fireAdbpoll ∧
    decodeEvent ⟨0b0101, 9, .via2, 3, true⟩ = .ok (.tickT1 .via2) ∧
    decodeEvent ⟨0b0110, 9, .via2, 3, true⟩ = .ok (.tickT2 .via2) ∧
    decodeEvent ⟨0b0111, 9, .via2, 3, true⟩ = .ok (.extirq .via2 3 true) ∧
    decodeEvent ⟨0b1000, 9, .via2, 3, true⟩ = .error (.unassignedEvent 8) := by decide

/-! ## Bus reads -/

/-- TV20. -/
theorem test_rdOrb : (after (.rdOrb .via1) id).outputs = [.readByte .via1 0x3C] := by decide
/-- TV28, with another value of the OPEN parameter. -/
theorem test_rdOrah : (after (.rdOrah .via1) fun s =>
    { s with params := { s.params with unusedRead := 0x7E } }).outputs =
      [.readByte .via1 0x7E] := by decide
theorem test_rdDdrb : (after (.rdDdrb .via2) (via2 fun v => { v with dirb := 0x37 })).outputs =
    [.readByte .via2 0x37] := by decide
theorem test_rdDdra : (after (.rdDdra .via2) (via2 fun v => { v with dira := 0x0F })).outputs =
    [.readByte .via2 0x0F] := by decide
/-- R118. -/
theorem test_rdT1cl : (after (.rdT1cl .via1) (via1 fun v => { v with t1c := 0x1234 })).outputs =
    [.readByte .via1 0x34] := by decide
/-- R120. -/
theorem test_rdT1ch : (after (.rdT1ch .via1) (via1 fun v => { v with t1c := 0x1234 })).outputs =
    [.readByte .via1 0x12] := by decide
/-- R122. -/
theorem test_rdT1ll : (after (.rdT1ll .via2) (via2 fun v => { v with t1l := 0xABCD })).outputs =
    [.readByte .via2 0xCD] := by decide
/-- R124. -/
theorem test_rdT1lh : (after (.rdT1lh .via2) (via2 fun v => { v with t1l := 0xABCD })).outputs =
    [.readByte .via2 0xAB] := by decide
/-- TV35: the counter, not the latch. -/
theorem test_rdT2cl : (after (.rdT2cl .via2) (via2 fun v => { v with t2ll := 0x05 })).outputs =
    [.readByte .via2 0x00] := by decide
/-- TV37. -/
theorem test_rdT2ch : (after (.rdT2ch .via2) (via2 fun v => { v with t2c := 0x0105 })).outputs =
    [.readByte .via2 0x01] := by decide
theorem test_rdSr : (after (.rdSr .via1) (via1 fun v => { v with sr := 0x2C })).outputs =
    [.readByte .via1 0x2C] := by decide
theorem test_rdAcr : (after (.rdAcr .via1) (via1 fun v => { v with acr := 0xFF })).outputs =
    [.readByte .via1 0xFF] := by decide
theorem test_rdPcr : (after (.rdPcr .via2) (via2 fun v => { v with pcr := 0xEE })).outputs =
    [.readByte .via2 0xEE] := by decide
/-- TV5, row 4. -/
theorem test_rdIfr_summary : (after (.rdIfr .via1) (via1 fun v =>
    { v with ifr := 0x63, ier := 0x40 })).outputs = [.readByte .via1 0xE3] := by decide
/-- TV5, row 2. -/
theorem test_rdIfr_disabled : (after (.rdIfr .via1) (via1 fun v =>
    { v with ifr := 0x02, ier := 0x00 })).outputs = [.readByte .via1 0x02] := by decide
/-- TV55. -/
theorem test_rdIer : (after (.rdIer .via1) (via1 fun v => { v with ier := 0x03 })).outputs =
    [.readByte .via1 0x83] := by decide
theorem test_rdIer_bit7_clear : (after (.rdIer .via1) fun s =>
    { (via1 (fun v => { v with ier := 0x03 }) s) with
      params := { s.params with ierReadBit7 := false } }).outputs =
      [.readByte .via1 0x03] := by decide
theorem test_rdOra : (after (.rdOra .via1) (via1 fun v => { v with a := 0x0B })).outputs =
    [.readByte .via1 0x0B] := by decide

/-- Parameters with the windows at 0x9000 and 0x4000. -/
def apart : Params := { Params.recommended with via1Base := 0x9000, via2Base := 0x4000 }

/-- R63, R66: an address is in the window of one bank, of the other, or of none. -/
theorem test_accessAt :
    accessAt apart false 0xAFFF 1 0x00 = some ⟨.via1, false, 0x1FFF, 1, 0x00⟩ ∧
    accessAt apart true 0x5A00 1 0x7F = some ⟨.via2, true, 0x1A00, 1, 0x7F⟩ ∧
    accessAt apart false 0xB000 1 0x00 = none ∧ accessAt apart false 0x8FFF 1 0x00 = none := by
  decide

/-! ## Construction -/

/-- R237, R245: every collaborator given at construction is the machine's, and a flag shows at the
input its bank's line goes to. -/
theorem test_construct_wires : (let w : Wiring := ⟨[orb1Write 0x00], 7, [⟨1, true, 0x2C⟩], 3,
      [.shutdownRequest], ⟨4, 9⟩⟩
    let s := State.construct Params.recommended [] 0 w
    s.pending = w.bus ∧ s.adbScript = w.adbScript ∧ s.outputs = w.sink ∧
    (via2 (fun v => { v with ifr := 0x20, ier := 0x20 }) s).driven =
      [(4, false), (9, true)]) := by decide

/-! ## Bus writes -/

/-- TV23 and TV24: the masked store. -/
theorem test_wrOrb_masked : (after (.wrOrb .via2 0x55) (via2 fun v =>
    { v with dirb := 0xF0, b := 0x0A })).via2.b = 0x5A := by decide
/-- P5 step 13. -/
theorem test_wrOrb_shutdown : (after (.wrOrb .via2 0xFB) (via2 fun v =>
    { v with dirb := 0x04, b := 0x04 })).outputs = [.shutdownRequest] := by decide
theorem test_wrOrah : after (.wrOrah .via2 0xFF) id = State.reset := by decide
/-- TV25: no request, although the bit is low. -/
theorem test_wrDdrb : after (.wrDdrb .via2 0xFF) id =
    via2 (fun v => { v with dirb := 0xFF }) State.reset := by decide
theorem test_wrDdra : (after (.wrDdra .via1 0x0F) id).via1.dira = 0x0F := by decide
/-- TV30. -/
theorem test_wrT1cl : (after (.wrT1cl .via1 0x34) id).via1 =
    { State.reset.via1 with t1l := 0x0034 } := by decide
/-- TV31, with TV38: the flag is not cleared. -/
theorem test_wrT1ch : (after (.wrT1ch .via1 0x12) (via1 fun v =>
    { v with t1l := 0xFF34, ifr := 0x40 })).via1 =
    { State.reset.via1 with t1l := 0x1234, t1c := 0x1234, t1armed := true, ifr := 0x40 } := by
  decide
theorem test_wrT1ll : (after (.wrT1ll .via2 0xCD) (via2 fun v =>
    { v with t1l := 0xAB00 })).via2.t1l = 0xABCD := by decide
/-- TV33: no load. -/
theorem test_wrT1lh : (after (.wrT1lh .via2 0xAB) (via2 fun v => { v with t1l := 0x00CD })).via2 =
    { State.reset.via2 with t1l := 0xABCD } := by decide
theorem test_wrT2cl : (after (.wrT2cl .via2 0x05) id).via2 =
    { State.reset.via2 with t2ll := 0x05 } := by decide
/-- TV36. -/
theorem test_wrT2ch : (after (.wrT2ch .via2 0x01) (via2 fun v => { v with t2ll := 0x05 })).via2 =
    { State.reset.via2 with t2ll := 0x05, t2c := 0x0105, t2armed := true } := by decide
/-- TV41: no call of the collaborator. -/
theorem test_wrSr : after (.wrSr .via1 0x2C) id =
    via1 (fun v => { v with sr := 0x2C }) State.reset := by decide
theorem test_wrAcr : (after (.wrAcr .via1 0xFF) id).via1.acr = 0xFF := by decide
theorem test_wrPcr : (after (.wrPcr .via2 0xEE) (via2 fun v => { v with pcr := 0x22 })).via2.pcr =
    0xEE := by decide
/-- TV5, row 4. -/
theorem test_wrIfr : (after (.wrIfr .via1 0x82) (via1 fun v => { v with ifr := 0x63 })).via1.ifr =
    0x61 := by decide
/-- TV5, row 6: without bit 7 nothing is cleared. -/
theorem test_wrIfr_without_bit7 :
    (after (.wrIfr .via1 0x02) (via1 fun v => { v with ifr := 0x63 })).via1.ifr = 0x63 := by decide
/-- TV51 and TV56: the line rises in the same step. -/
theorem test_wrIer_set : (after (.wrIer .via1 0x82) (via1 fun v =>
    { v with ifr := 0x02, ier := 0x40 })).via1.ier = 0x42 ∧
    (after (.wrIer .via1 0x82) (via1 fun v => { v with ifr := 0x02 })).irq .via1 = true := by decide
/-- TV52. -/
theorem test_wrIer_clear : (after (.wrIer .via1 0x02) (via1 fun v =>
    { v with ier := 0x42 })).via1.ier = 0x40 := by decide
/-- R141. -/
theorem test_wrOra : (after (.wrOra .via2 0xAB) (via2 fun v => { v with dira := 0x0F })).via2.a =
    0x0B := by decide

/-! ## The serial layer and the ADB transfer inside `WR.ORB V1` -/

/-- TV61, the third bit: rising edge with data 1. -/
theorem test_serial_takes_bit : (after (.wrOrb .via1 0x33) fun s =>
    seq (fun r => { r with dataOut := 0x02, dataOutCount := 2 }) (selected s)).rtc =
    { (selected State.reset).rtc with
      dataOut := 0x05, dataOutCount := 3, lastPortB := 0x3B } := by decide
/-- TV1, write 16 of byte 0x25. -/
theorem test_serial_dispatches : (after (.wrOrb .via1 0x33) fun s =>
    seq (fun r => { r with dataOut := 0x12, dataOutCount := 7 }) (selected s)).rtc =
    { (selected State.reset).rtc with cmd := 0x25, lastPortB := 0x3B } := by decide
/-- TV66, the first falling edge. -/
theorem test_serial_presents_bit : (after (.wrOrb .via1 0x30) fun s =>
    seq (fun r => { r with dataIn := 0xF0, dataInCount := 8, lastPortB := 0x3A })
      (via1 (fun v => { v with b := 0x3A, dirb := 0x36 }) (selected s))).via1.b = 0x39 := by decide
/-- TV62: deselected, clock toggled. -/
theorem test_serial_deselected : (after (.wrOrb .via1 0x36) fun s =>
    seq (fun r => { r with dataOut := 0x05, dataOutCount := 3 }) (selected s)).rtc =
    { (selected State.reset).rtc with
      dataOut := 0x05, dataOutCount := 3, lastPortB := 0x3E } := by decide
/-- TV7, rows 1 and 2: `send` with the stored state. -/
theorem test_adb_send : (after (.wrOrb .via1 0x10) fun s => answer 0 false 0x00
    (via1 (fun v => { v with dirb := 0x30, acr := 0x10, sr := 0x2C, b := 0x04 }) s)).via1.b = 0x1C ∧
    (after (.wrOrb .via1 0x00) fun s => answer 1 false 0x00
    (via1 (fun v => { v with dirb := 0x30, acr := 0x10, sr := 0x2C }) s)).outputs =
      [.adbCall (.send 0 0x2C)] := by decide
/-- TV80 and TV82. -/
theorem test_adb_receive : (after (.wrOrb .via1 0x10) fun s => answer 1 false 0x2C
    (via1 (fun v => { v with dirb := 0x30 }) s)).via1 =
      { State.reset.via1 with dirb := 0x30, sr := 0x2C, b := 0x14 } ∧
    (after (.wrOrb .via1 0x10) fun s => answer 1 false 0xFF
    (via1 (fun v => { v with dirb := 0x30 }) s)).via1.b = 0x1C := by decide

/-! ## RTC commands -/

/-- TV4. -/
def clock (s : State) : State :=
  seq (fun r => { r with tickOffset := 0x12345678 }) { s with now := 5500000000 }

theorem test_rtcRdsec0 : (after .rtcRdsec0 clock).rtc.dataIn = 0x7D := by decide
theorem test_rtcRdsec1 : (after .rtcRdsec1 clock).rtc.dataIn = 0x56 := by decide
theorem test_rtcRdsec2 : (after .rtcRdsec2 clock).rtc.dataIn = 0x34 := by decide
theorem test_rtcRdsec3 : (after .rtcRdsec3 clock).rtc.dataIn = 0x12 := by decide
/-- TV4, the wrap. -/
theorem test_seconds_wrap : (after .rtcRdsec0 fun s =>
    seq (fun r => { r with tickOffset := 0xFFFFFFFE }) { s with now := 3000000000 }).rtc.dataIn =
      0x01 := by decide
/-- P1 step 50. -/
theorem test_rtcRdpram : (after (.rtcRdpram 1) fun s => { s with pram := [(9, 0x42)] }).rtc =
    { State.reset.rtc with dataIn := 0x42, dataInCount := 8 } := by decide
theorem test_rtcRdpramDead : after (.rtcRdpramDead 1) id = State.reset := by decide
/-- R167. -/
theorem test_rtcXrdsel : (after (.rtcXrdsel 2) id).rtc = { State.reset.rtc with cmd := 0xBA } := by
  decide
/-- TV75. -/
theorem test_rtcRdnop : after (.rtcRdnop 0x91) id = State.reset := by decide
/-- R169. -/
theorem test_rtcWrcmd : (after (.rtcWrcmd 0x25) id).rtc.cmd = 0x25 := by decide
/-- TV71, TV72: two names of index 21. -/
theorem test_rtcXrd : (after (.rtcXrd 1 13) fun s =>
    { (seq (fun r => { r with cmd := 0xB9 }) s) with pram := [(21, 0x77)] }).rtc =
    { State.reset.rtc with dataIn := 0x77, dataInCount := 8 } := by decide
/-- TV2 with the alternative `LOW_PRAM_ADDR`, and R96 with stride 32: the indices 1 and 2 * 32 + 5. -/
theorem test_otherPram : (after (.rtcRdpram 1) fun s =>
      otherPram { s with pram := [(1, 0x42), (9, 0x99)] }).rtc.dataIn = 0x42 ∧
    (after (.rtcXwr 2 0x77) fun s =>
      otherPram (seq (fun r => { r with cmd := 0x3A, alt := 0x14 }) s)).pram = [(69, 0x77)] := by
  decide
/-- TV74: addressing byte 0x00 is not recorded. -/
theorem test_rtcXwr_address : (after (.rtcXwr 0 0x00) (seq fun r => { r with cmd := 0x38 })).rtc =
    { State.reset.rtc with cmd := 0x38 } := by decide
/-- TV70. -/
theorem test_rtcXwr_data : after (.rtcXwr 2 0x77) (seq fun r => { r with cmd := 0x3A, alt := 0x14 })
    = { State.reset with pram := [(21, 0x77)] } := by decide
/-- P1 step 34. -/
theorem test_rtcWrpram : after (.rtcWrpram 1 0x42) (seq fun r => { r with cmd := 0x25 }) =
    { State.reset with pram := [(9, 0x42)] } := by decide
/-- TV3, row 2. -/
theorem test_rtcWrpram_protected : (after (.rtcWrpram 1 0x99) fun s =>
    { (seq (fun r => { r with cmd := 0x25, wprotect := true }) s) with pram := [(9, 0x11)] }).pram =
      [(9, 0x11)] := by decide
theorem test_rtcWrpramDead : after (.rtcWrpramDead 1 0x42) id = State.reset := by decide
/-- TV3, row 5: lifted while protected. -/
theorem test_rtcWprot : (after (.rtcWprot false) (seq fun r =>
    { r with cmd := 0x35, wprotect := true })).rtc = State.reset.rtc := by decide
/-- TV77. -/
theorem test_rtcWrsec0 : after (.rtcWrsec0 0xAA) (seq fun r => { r with cmd := 0x01 }) =
    State.reset := by decide
theorem test_rtcWrsec1 : after (.rtcWrsec1 0xAA) (seq fun r => { r with cmd := 0x05 }) =
    State.reset := by decide
theorem test_rtcWrsec2 : after (.rtcWrsec2 0xAA) (seq fun r => { r with cmd := 0x09 }) =
    State.reset := by decide
theorem test_rtcWrsec3 : after (.rtcWrsec3 0xAA) (seq fun r => { r with cmd := 0x0D }) =
    State.reset := by decide
/-- TV76. -/
theorem test_rtcWrnop : after (.rtcWrnop 0x31 0x80) (seq fun r => { r with cmd := 0x31 }) =
    State.reset := by decide

/-! ## Events -/

/-- TV101. -/
theorem test_reset_deadlines : (after .reset fun s => { s with now := 5000000000 }).nextVbl =
      5005630000 ∧
    (after .reset fun s => { s with now := 5000000000 }).nextSec = 6000000000 ∧
    (after .reset fun s => { s with now := 5000000000 }).nextAdb = 5020000000 := by decide
/-- A machine in use: a command pending, a bit pattern half in, flags and PRAM set. -/
def inUse (s : State) : State :=
  let r := { s.rtc with
    tickOffset := 7, cmd := 0x3A, alt := 0x14, wprotect := true, dataOut := 0x05,
    dataOutCount := 3 }
  { s with via1 := { s.via1 with ifr := 0x43, acr := 0x50 }, rtc := r, pram := [(9, 0x42)] }

/-- TV100, in part: PRAM and the seconds bias are kept, the rest is not. -/
theorem test_reset_keeps : after .reset inUse =
    seq (fun r => { r with tickOffset := 7 }) { State.reset with pram := [(9, 0x42)] } := by
  decide
theorem test_advance : (after (.advance 16630000) id) = { State.reset with now := 16630000 } := by
  decide
/-- TV92. -/
theorem test_fireVbl : after .fireVbl (fun s => { s with now := 16630000 }) =
    { (via1 (fun v => { v with ifr := 0x02 }) State.reset) with
      now := 16630000, nextVbl := 33260000 } := by decide
/-- TV91. -/
theorem test_fireVbl_early : after .fireVbl (fun s => { s with now := 16629999 }) =
    { State.reset with now := 16629999 } := by decide
/-- TV93. -/
theorem test_fireSec : (after .fireSec fun s => { s with now := 1000000000 }).via1.ifr = 0x01 ∧
    (after .fireSec fun s => { s with now := 1000000000 }).nextSec = 2000000000 := by decide
/-- TV86. -/
theorem test_fireAdbpoll : (after .fireAdbpoll fun s => answer 0 true 0x61
    (via1 (fun v => { v with sr := 0x10 }) { s with now := 20000000 })).via1 =
    { State.reset.via1 with sr := 0x61, b := 0x34 } := by decide
/-- TV85: bit clear, no call. -/
theorem test_fireAdbpoll_no_call : after .fireAdbpoll (fun s =>
    via1 (fun v => { v with b := 0x34 }) { s with now := 20000000 }) =
    { (via1 (fun v => { v with b := 0x34 }) State.reset) with
      now := 20000000, nextAdb := 40000000 } := by decide
/-- P3 step 6. -/
theorem test_tickT1_oneshot : (after (.tickT1 .via2) (via2 fun v => { v with t1armed := true })).via2
    = { State.reset.via2 with t1c := 0xFFFF, ifr := 0x40 } := by decide
/-- P3 step 13. -/
theorem test_tickT1_freerun : (after (.tickT1 .via2) (via2 fun v =>
    { v with acr := 0x40, t1l := 0x0001 })).via2 =
    { State.reset.via2 with acr := 0x40, t1l := 0x0001, t1c := 0x0001, ifr := 0x40 } := by decide
/-- P3 step 20. -/
theorem test_tickT2_armed : (after (.tickT2 .via2) (via2 fun v =>
    { v with t2armed := true, ifr := 0x40 })).via2 =
    { State.reset.via2 with t2c := 0xFFFF, ifr := 0x60 } := by decide
/-- R215: the first tick after reset sets no flag. -/
theorem test_tickT2_unarmed : (after (.tickT2 .via2) id).via2 =
    { State.reset.via2 with t2c := 0xFFFF } := by decide
/-- P5 step 8. -/
theorem test_extirq_low : (after (.extirq .via2 3 false) (via2 fun v => { v with ifr := 0x0A })).via2
    = { State.reset.via2 with ifr := 0x02 } := by decide
/-- TV98. -/
theorem test_extirq_line7 : after (.extirq .via2 7 true) id = State.reset := by decide

/-! ## The step -/

/-- The host's way in: a command word runs inside the `WR.ORB` that completes it. -/
theorem test_fetch_rtc_word : ∃ t, step (State.reset.withFetchWord 8 0x85) = .next t ∧
    t.rtc.dataInCount = 8 ∧ t.rtc.dataOutCount = 0 := ⟨_, rfl, by decide, by decide⟩
theorem test_fetch_bus_word : step (State.reset.withFetchWord 16 0x2400) =
    exec (.wrDdrb .via1 0x00) State.reset := rfl
theorem test_step_waits : step State.reset = .next State.reset := rfl

/-! ## Witnesses: for every statement with hypotheses, values that meet them together, one for each
clause and at the ends of its range -/

/-- A machine in the middle of everything: an extended write half done, seven bits in, eight bits
queued, the ADB poll due on its grid point, a byte of PRAM at the last index. -/
def busy : State :=
  let r := { State.reset.rtc with
    cmd := 0x3A, alt := 0x14, dataOut := 0x7F, dataOutCount := 7, dataIn := 0xFF, dataInCount := 8,
    lastPortB := 0x38, tickOffset := 0xFFFFFFFF }
  { State.reset with
    via1 := { State.reset.via1 with b := 0x38, dirb := 0x37 }, rtc := r, pram := [(255, 0x01)],
    nextVbl := 33260000, now := 20000000 }

/-- As `busy`, with a write on offer that completes the byte. -/
def busyOffered : State := busy.offer (orb1Write 0x33)

theorem busy_inv : busyOffered.Inv := by
  refine ⟨by decide, ⟨by decide, by decide, by decide, by decide, by decide, by decide⟩,
    fun _ _ => rfl, ?_, ?_, ?_⟩
  all_goals (unfold deadlineOk; decide)

theorem test_witness_DecodeReadsBackEveryEncoding :
    (Instr.extirq .via2 7 true).wellFormed = true ∧ (Instr.rtcXrd 7 31).wellFormed = true ∧
    (Instr.rtcRdnop 0xFF).wellFormed = true ∧ (Instr.rtcWrnop 0x7F 0xFF).wellFormed = true := by
  decide
theorem test_witness_EveryOneByteAccessDecodes :
    (BusAccess.mk .via1 false 0x0000 1 0x00).size = 1 ∧
    (BusAccess.mk .via2 true 0x50F03FFF 1 0xFF).size = 1 := by decide

/-- The sixteen reads, as the statement lists them. -/
def reads (bank : BankId) : List Instr :=
  [.rdOrb bank, .rdOrah bank, .rdDdrb bank, .rdDdra bank, .rdT1cl bank, .rdT1ch bank, .rdT1ll bank,
    .rdT1lh bank, .rdT2cl bank, .rdT2ch bank, .rdSr bank, .rdAcr bank, .rdPcr bank, .rdIfr bank,
    .rdIer bank, .rdOra bank]

/-- The sixteen writes, as the statement lists them. -/
def writes (bank : BankId) (data : Byte) : List Instr :=
  [.wrOrb bank data, .wrOrah bank data, .wrDdrb bank data, .wrDdra bank data, .wrT1cl bank data,
    .wrT1ch bank data, .wrT1ll bank data, .wrT1lh bank data, .wrT2cl bank data, .wrT2ch bank data,
    .wrSr bank data, .wrAcr bank data, .wrPcr bank data, .wrIfr bank data, .wrIer bank data,
    .wrOra bank data]

theorem test_witness_OffsetSelectsTheRegister :
    (reads .via1)[0]? = some (.rdOrb .via1) ∧ (writes .via1 0x5A)[0]? = some (.wrOrb .via1 0x5A) ∧
    (reads .via2)[15]? = some (.rdOra .via2) ∧
    (writes .via2 0x5A)[15]? = some (.wrOra .via2 0x5A) ∧
    Params.recommended.via1Base + 0x2000 ≤ Params.recommended.via2Base ∧
    windowBase Params.recommended .via1 % 0x2000 = 0 ∧
    windowBase Params.recommended .via2 % 0x2000 = 0 ∧
    apart.via2Base + 0x2000 ≤ apart.via1Base := by decide
theorem test_witness_OnlyAddressBits12To9AreDecoded :
    decodeBus ⟨.via1, false, 0x1FFF, 1, 0x00⟩ = decodeBus ⟨.via1, false, 0x3E00, 1, 0x00⟩ ∧
    decodeBus ⟨.via2, true, 0x01FF, 1, 0x00⟩ ≠ decodeBus ⟨.via2, true, 0x0200, 1, 0x00⟩ := by decide
theorem test_witness_WideAccessIsRefused :
    (State.reset.offer (.bus ⟨.via1, false, 0x0000, 2, 0x00⟩)).pending =
      .bus ⟨.via1, false, 0x0000, 2, 0x00⟩ :: [] ∧
    (BusAccess.mk .via1 false 0x0000 2 0x00).size ≠ 1 ∧
    (State.reset.offer (.bus ⟨.via2, true, 0x1E00, 0, 0x00⟩)).pending =
      .bus ⟨.via2, true, 0x1E00, 0, 0x00⟩ :: [] ∧
    (BusAccess.mk .via2 true 0x1E00 0 0x00).size ≠ 1 := by decide
theorem test_witness_EventCodesDecode : 8 ≤ (8#4).toNat ∧ 8 ≤ (15#4).toNat := by decide
theorem test_witness_RtcByteDecodesInItsContext :
    (0x00 : Byte).getLsbD 7 = false ∧ (0x7F : Byte).getLsbD 7 = false ∧
    (∀ b ∈ [(0x81 : Byte), 0xA1, 0xAD, 0xB8, 0xBF, 0x80, 0xB7, 0xC0, 0xFF], b.getLsbD 7 = true) ∧
    (∀ b ∈ [(0x80 : Byte), 0xB7, 0xC0, 0xFF],
      b ∉ [0x81, 0x85, 0x89, 0x8D, 0xA1, 0xA5, 0xA9, 0xAD] ∧
      ¬(0xB8 ≤ b.toNat ∧ b.toNat ≤ 0xBF)) ∧
    (∀ c ∈ [(0x38 : Byte), 0x3F, 0x21, 0x2D, 0x35, 0x01, 0x0D, 0x02, 0x37, 0x40, 0x7F],
      c ≠ 0x00 ∧ c.getLsbD 7 = false) ∧
    (∀ c ∈ [(0x02 : Byte), 0x37, 0x40, 0x7F],
      c ∉ [0x21, 0x25, 0x29, 0x2D, 0x35, 0x01, 0x05, 0x09, 0x0D] ∧
      ¬(0x38 ≤ c.toNat ∧ c.toNat ≤ 0x3F)) ∧
    (0xB8 : Byte).getLsbD 7 = true ∧ (0xBF : Byte).getLsbD 7 = true := by decide
theorem test_witness_StepRunsTheOfferedStimulus :
    State.reset.pending = [] ∧ busyOffered.pending = orb1Write 0x33 :: [] ∧
    decodeStimulus (orb1Write 0x33) = .ok (.wrOrb .via1 0x33) := by decide
theorem test_witness_AcknowledgeClearsTheNamedFlags :
    (0x7F : Byte).getLsbD 7 = false ∧ (0x80 : Byte).getLsbD 7 = true ∧ 0 < 7 ∧ 6 < 7 := by decide
theorem test_witness_FlagsAndEnablesChangeOnlyWhereNamed :
    (∃ t, exec (.wrOrb .via1 0x33) busy = .next t) ∧ mayChangeFlags (.wrOrb .via1 0x33) = false ∧
    (∀ b d, Instr.wrOrb .via1 0x33 ≠ .wrIer b d) ∧ Instr.wrOrb .via1 0x33 ≠ .reset := by
  exact ⟨⟨_, rfl⟩, rfl, nofun, nofun⟩
theorem test_witness_OtherBusWritesAreIdempotent :
    writeBank (.wrT1ch .via1 0x12) = some .via1 ∧ (∀ d, Instr.wrT1ch .via1 0x12 ≠ .wrOrb .via1 d) ∧
    (∀ d, Instr.wrT1ch .via1 0x12 ≠ .wrOrb .via2 d) ∧
    (∃ t, exec (.wrT1ch .via1 0x12) busy = .next t) ∧
    writeBank (.wrOrb .via2 0x00) = some .via2 ∧ (∀ d, Instr.wrOrb .via2 0x00 ≠ .wrOrb .via1 d) ∧
    (∃ t, exec (.wrOrb .via2 0x00) busy = .next t) := by
  exact ⟨rfl, nofun, nofun, ⟨_, rfl⟩, rfl, nofun, ⟨_, rfl⟩⟩
theorem test_witness_BanksDoNotAlias :
    readBank (.rdT1cl .via1) = some .via1 ∧ (∃ t, exec (.rdT1cl .via1) busy = .next t) ∧
    writeBank (.wrOrb .via1 0x33) = some .via1 ∧
    (∃ t, exec (.wrOrb .via1 0x33) busy = .next t) ∧
    (∃ t, exec (.tickT1 .via1) busy = .next t) ∧ (∃ t, exec (.tickT2 .via1) busy = .next t) ∧
    (∃ t, exec (.extirq .via1 7 true) busy = .next t) ∧ BankId.via2 ≠ .via1 :=
  ⟨rfl, ⟨_, rfl⟩, rfl, ⟨_, rfl⟩, ⟨_, rfl⟩, ⟨_, rfl⟩, ⟨_, rfl⟩, by decide⟩
theorem test_witness_WriteOfPortBOfVia1StoresAndCallsOnce :
    busy.via1.dirb.getLsbD 0 = true := by decide
theorem test_witness_DeselectedSequencerKeepsItsState :
    storedBit busy.via1 0x37 2 = true := by decide
theorem test_witness_NoClockEdgeMovesNoBit :
    busy.rtc.dataOutCount < 8 ∧ storedBit busy.via1 0x31 1 = busy.rtc.lastPortB.getLsbD 1 := by
  decide

/-- `busy` with six bits in, so that the next rising edge is the seventh. -/
def sixIn : State := seq (fun r => { r with dataOut := 0x3F, dataOutCount := 6 }) busy

/-- `busy`, with seven bits in, with the clock high. -/
def sevenInHigh : State := seq (fun r => { r with lastPortB := 0x3A }) busy

theorem test_witness_RisingEdgeTakesAHostBit :
    storedBit sixIn.via1 0x33 2 = false ∧ sixIn.via1.dirb.getLsbD 0 = true ∧
    sixIn.rtc.dataOutCount < 7 ∧ sixIn.rtc.lastPortB.getLsbD 1 = false ∧
    storedBit sixIn.via1 0x33 1 = true ∧
    storedBit sevenInHigh.via1 0x31 2 = false ∧ sevenInHigh.via1.dirb.getLsbD 0 = true ∧
    sevenInHigh.rtc.dataOutCount = 7 ∧ sevenInHigh.rtc.dataOutCount < 8 ∧
    sevenInHigh.rtc.lastPortB.getLsbD 1 = true ∧
    storedBit sevenInHigh.via1 0x31 1 = false := by decide
theorem test_witness_EighthRisingEdgeDispatches :
    storedBit busy.via1 0x33 2 = false ∧ busy.via1.dirb.getLsbD 0 = true ∧
    busy.rtc.dataOutCount = 7 ∧ busy.rtc.lastPortB.getLsbD 1 = false ∧
    storedBit busy.via1 0x33 1 = true := by decide

/-- `busy` with the data pin an input and `n` bits queued, the clock last at 0 or at 1. -/
def reading (n : Nat) (last : Byte) : State :=
  seq (fun r => { r with dataInCount := n, lastPortB := last })
    (via1 (fun v => { v with dirb := 0x36 }) busy)

theorem test_witness_FallingEdgePresentsAChipBit :
    storedBit (reading 1 0x3A).via1 0x30 2 = false ∧
    (reading 1 0x3A).via1.dirb.getLsbD 0 = false ∧ (reading 1 0x3A).rtc.dataOutCount < 8 ∧
    (reading 1 0x3A).rtc.lastPortB.getLsbD 1 = true ∧
    storedBit (reading 1 0x3A).via1 0x30 1 = false ∧ 0 < (reading 1 0x3A).rtc.dataInCount ∧
    (reading 0 0x3A).rtc.dataInCount = 0 ∧ (reading 8 0x38).rtc.lastPortB.getLsbD 1 = false ∧
    storedBit (reading 8 0x38).via1 0x32 2 = false ∧
    storedBit (reading 8 0x38).via1 0x32 1 = true := by decide
theorem test_witness_ShiftOutSendsTheByte :
    (via1 (fun v => { v with acr := 0x10 }) busy).via1.acr.getLsbD 4 = true := by decide
theorem test_witness_ShiftInReceivesAByte : busy.via1.acr.getLsbD 4 = false := by decide
theorem test_witness_SerialSendDispatchesTheByte :
    let s := { (selected State.reset) with pending := sendByte 0x38 0x25 ++ [orb1Write 0x3F] }
    (0x38 : Byte).toNat % 8 = 0 ∧ s.via1.dirb.toNat % 8 = 7 ∧ s.rtc.dataOutCount = 0 ∧
    s.pending = sendByte 0x38 0x25 ++ [orb1Write 0x3F] := by decide
theorem test_witness_SequencerAndAdbMoveOnlyWhereNamed :
    (∃ t, exec (.wrOrb .via2 0x00) busy = .next t) ∧
    (∀ d, Instr.wrOrb .via2 0x00 ≠ .wrOrb .via1 d) ∧ isRtc (.wrOrb .via2 0x00) = false ∧
    Instr.wrOrb .via2 0x00 ≠ .reset ∧ Instr.wrOrb .via2 0x00 ≠ .fireAdbpoll := by
  exact ⟨⟨_, rfl⟩, nofun, rfl, nofun, nofun⟩
theorem test_witness_SecondsCommandsQueueTheFourBytes :
    0x1234567D = ((clock State.reset).rtc.tickOffset.toNat
      + (clock State.reset).now / 1000000000) % 2 ^ 32 ∧
    0xFFFFFFFF = (busy.rtc.tickOffset.toNat + busy.now / 1000000000) % 2 ^ 32 := by decide
theorem test_witness_IgnoredCommandsChangeNothing :
    (∀ n ∈ [0x80, 0xFF], 128 ≤ n ∧ n ∉ [0x81, 0x85, 0x89, 0x8D, 0xA1, 0xA5, 0xA9, 0xAD] ∧
      n / 8 ≠ 0xB8 / 8) := by decide
/-- `busy` with the alternative of both PRAM parameters. -/
def other : State := otherPram busy

theorem test_witness_ExtendedWriteTakesTwoCycles :
    State.reset.rtc.alt = 0x00 ∧ busy.rtc.alt ≠ 0x00 ∧ Memory.wf busy.pram = true ∧
    busy.rtc.wprotect = false ∧
    (seq (fun r => { r with wprotect := true }) busy).rtc.wprotect = true ∧
    8 = (if busy.params.xpramStride = .eight then 8 else 32) ∧
    32 = (if other.params.xpramStride = .eight then 8 else 32) ∧
    255 ≠ (7#3).toNat * 8 + busy.rtc.alt.toNat / 4 % 32 := by decide
theorem test_witness_LowBankWriteStoresTheByte :
    Memory.wf busy.pram = true ∧ busy.rtc.wprotect = false ∧
    (seq (fun r => { r with wprotect := true }) busy).rtc.wprotect = true ∧
    8 = (if busy.params.lowPram = .nibble then 8 else 0) + (0#2).toNat ∧
    3 = (if other.params.lowPram = .nibble then 8 else 0) + (3#2).toNat ∧
    7 ≠ 8 ∧ 12 ≠ 8 + (3#2).toNat := by decide
theorem test_witness_WriteProtectionStopsStoresAlone :
    let s := seq (fun r => { r with wprotect := true }) busy
    isRtc (.rtcXwr 7 0xFF) = true ∧ s.rtc.wprotect = true ∧
    (∃ t, exec (.rtcXwr 7 0xFF) s = .next t) ∧
    (∃ u, exec (.rtcXwr 7 0xFF) { s with rtc := { s.rtc with wprotect := false } } = .next u) ∧
    isRtc (.rtcWprot false) = true ∧ (∃ t, exec (.rtcWprot false) s = .next t) :=
  ⟨rfl, rfl, ⟨_, rfl⟩, ⟨_, rfl⟩, rfl, ⟨_, rfl⟩⟩
theorem test_witness_PramWriteIsReadBack :
    Memory.wf busy.pram = true ∧ busy.rtc.wprotect = false ∧
    11 = (if busy.params.lowPram = .nibble then 8 else 0) + (3#2).toNat ∧
    8 = (if busy.params.xpramStride = .eight then 8 else 32) ∧
    Memory.wf other.pram = true ∧ other.rtc.wprotect = false ∧
    2 = (if other.params.lowPram = .nibble then 8 else 0) + (2#2).toNat ∧
    32 = (if other.params.xpramStride = .eight then 8 else 32) ∧
    (0#3).toNat * 8 + (11#5).toNat = 11 ∧ (1#3).toNat * 8 + (3#5).toNat = 11 ∧
    (0#3).toNat * 32 + (2#5).toNat = 2 := by decide
theorem test_witness_NextDeadlineIsTheNextGridPoint :
    0 < 1 ∧ 0 < Config.periodVbl ∧ 16629999 % Config.periodVbl ≠ 0 ∧ 3 ∣ 12 ∧ 10 < 12 := by decide
theorem test_witness_DueTimersSetTheirFlag :
    ({ State.reset with now := 16630000 } : State).nextVbl ≤ 16630000 ∧
    ({ State.reset with now := 1000000000 } : State).nextSec ≤ 1000000000 := by decide
theorem test_witness_DuePollOffersTheShiftRegister :
    busy.nextAdb ≤ busy.now ∧ busy.via1.b.getLsbD 3 = true ∧
    (via1 (fun v => { v with b := 0x30 }) busy).nextAdb ≤ busy.now ∧
    (via1 (fun v => { v with b := 0x30 }) busy).via1.b.getLsbD 3 = false := by decide
theorem test_witness_FiringBeforeTheDeadlineChangesNothing :
    ({ State.reset with now := 16629999 } : State).now < State.reset.nextVbl ∧
    ({ State.reset with now := 999999999 } : State).now < State.reset.nextSec ∧
    ({ State.reset with now := 19999999 } : State).now < State.reset.nextAdb := by decide
theorem test_witness_FiringsCommuteAndDoNotRepeat :
    let s := answer 0 true 0x61 { State.reset with now := 1000000000 }
    Instr.fireVbl ∈ [Instr.fireVbl, .fireSec, .fireAdbpoll] ∧
    Instr.fireAdbpoll ∈ [Instr.fireVbl, .fireSec, .fireAdbpoll] ∧
    s.nextVbl ≤ s.now ∧ s.nextAdb ≤ s.now ∧
    (∃ t u, exec .fireVbl s = .next t ∧ exec .fireAdbpoll t = .next u) ∧
    (∃ v w, exec .fireAdbpoll s = .next v ∧ exec .fireVbl v = .next w) :=
  ⟨by decide, by decide, by decide, by decide, ⟨_, _, rfl, rfl⟩, _, _, rfl, rfl⟩

/-- Bank 2 with both counters at `c`, armed or not, and control `acr`. -/
def counting (c : Count) (armed : Bool) (acr : Byte) : Via :=
  { State.reset.via2 with t1c := c, t2c := c, t1armed := armed, t2armed := armed, acr := acr }

theorem test_witness_TickOfTimer1 :
    counting 5 true 0x40 = (via2 (fun _ => counting 5 true 0x40) busy).via .via2 ∧
    (counting 1 true 0x40).t1c ≠ 0 ∧ (counting 0xFFFF true 0x40).t1c ≠ 0 ∧
    (counting 0 true 0x40).t1c = 0 ∧ (counting 0 true 0x40).acr.getLsbD 6 = true ∧
    (counting 0 true 0xBF).acr.getLsbD 6 = false ∧ (counting 0 true 0xBF).t1armed = true ∧
    (counting 0 false 0xBF).t1armed = false := by decide
theorem test_witness_TickOfTimer2 :
    counting 5 true 0x40 = (via2 (fun _ => counting 5 true 0x40) busy).via .via2 ∧
    (counting 1 true 0x00).t2c ≠ 0 ∧ (counting 0xFFFF true 0x00).t2c ≠ 0 ∧
    (counting 0 true 0x00).t2c = 0 ∧ (counting 0 true 0x00).t2armed = true ∧
    (counting 0 false 0x00).t2armed = false := by decide
theorem test_witness_TimerFlagsAtTickNPlusOne :
    (counting 0xFFFF true 0x00).t1c.toNat = 65535 ∧ (counting 0 true 0x00).t1c.toNat = 0 ∧
    (counting 0xFFFF true 0x00).acr.getLsbD 6 = false ∧ (counting 0xFFFF true 0x00).t1armed = true ∧
    ({ counting 2 false 0x40 with t1l := 2 } : Via).acr.getLsbD 6 = true ∧
    ({ counting 2 false 0x40 with t1l := 2 } : Via).t1l = (counting 2 false 0x40).t1c := by decide
theorem test_witness_StepKeepsTheInvariant : busyOffered.Inv ∧ ∃ t, step busyOffered = .next t :=
  ⟨busy_inv, _, rfl⟩
theorem test_witness_RestoreGivesBackTheSnapshot : busyOffered.Inv := busy_inv
theorem test_witness_FanInWritesItsOwnFlag :
    0 < 7 ∧ 6 < 7 ∧ 6 = (6#3).toNat ∧ (7#3) = 7 := by decide

end Sys2Proof.Tests
end

section
/-! The bus decoder as a lookup by the five bits the mask of R82 keeps, and those bits as the
direction and the register index of the access (R61, R81). -/

namespace Sys2Proof.Proofs

/-- Decoding a transaction word is looking its masked bits up among the patterns of the rows. -/
theorem decodeBusWord_eq_find (rows : List BusRow) (word : BitVec 14) (bank : BankId)
    (data : Byte) :
    decodeBusWord rows word bank data =
      (rows.find? fun row => word &&& busMask = row.pattern).elim
        (.error (.unassignedBusWord word)) fun row => .ok (row.make bank data) := by
  induction rows with
  | nil => rfl
  | cons row rest ih =>
    by_cases h : word &&& busMask = row.pattern
    · simp [decodeBusWord, h]
    · simp [decodeBusWord, h, ih]

/-- The mask of R82 keeps bits 13..9 where they stand. -/
theorem and_busMask (word : BitVec 14) :
    word &&& busMask = (word.extractLsb' 9 5).setWidth 14 <<< 9 := by
  ext k hk
  interval_cases k <;> simp [busMask]

/-- Two words agree under the mask of R82 exactly when bits 13..9 agree. -/
theorem and_busMask_eq_iff {word word' : BitVec 14} :
    word &&& busMask = word' &&& busMask ↔ word.extractLsb' 9 5 = word'.extractLsb' 9 5 := by
  have recover (w : BitVec 14) : w.extractLsb' 9 5 = (w &&& busMask).extractLsb' 9 5 := by
    ext k hk
    interval_cases k <;> simp [busMask]
  constructor
  · intro h
    rw [recover word, h, ← recover]
  · intro h
    rw [and_busMask, h, ← and_busMask]

/-- The table of R82 is total: whatever bits 13..9 hold, a row has them as its pattern. -/
theorem busRows_find_isSome (word : BitVec 14) :
    (busRows.find? fun row => word &&& busMask = row.pattern).isSome := by
  have total : ∀ bits : BitVec 5,
      (busRows.find? fun row => bits.setWidth 14 <<< 9 = row.pattern).isSome := by decide
  rw [and_busMask]
  exact total _

/-- A transaction word decodes to the instruction of a row whose pattern is its masked bits. -/
theorem decodeBusWord_busRows (word : BitVec 14) (bank : BankId) (data : Byte) :
    ∃ row ∈ busRows, row.pattern = word &&& busMask ∧
      decodeBusWord busRows word bank data = .ok (row.make bank data) := by
  obtain ⟨row, hrow⟩ := Option.isSome_iff_exists.1 (busRows_find_isSome word)
  have hpattern : word &&& busMask = row.pattern := by simpa using List.find?_some hrow
  exact ⟨row, List.mem_of_find?_eq_some hrow, hpattern.symm, by
    rw [decodeBusWord_eq_find, hrow]; rfl⟩

/-- The encoder gives back the pattern of the row an instruction was made by (R82): each of the 32
rows makes a constructor whose canonical word has that row's pattern. -/
theorem encode_make_of_mem_busRows (bank : BankId) (data : Byte) :
    ∀ row ∈ busRows, ∃ a, encode (row.make bank data) = .stimulus (.bus a) ∧
      a.word &&& busMask = row.pattern := by
  simp [busRows, busReadRows, busWriteRows, encode, busRead, busWrite, BusAccess.word, busMask]

/-- Two rows that make the same instruction have the same pattern. -/
theorem pattern_eq_of_make_eq {row row' : BusRow} (h : row ∈ busRows) (h' : row' ∈ busRows)
    {bank : BankId} {data : Byte} (hmake : row.make bank data = row'.make bank data) :
    row.pattern = row'.pattern := by
  obtain ⟨a, ha, hword⟩ := encode_make_of_mem_busRows bank data row h
  obtain ⟨a', ha', hword'⟩ := encode_make_of_mem_busRows bank data row' h'
  have hsame : a = a' := by simpa [hmake, ha'] using ha.symm
  rw [← hword, hsame, hword']

/-- Two transaction words decode alike exactly when they agree under the mask of R82. -/
theorem decodeBusWord_eq_iff {word word' : BitVec 14} {bank : BankId} {data : Byte} :
    decodeBusWord busRows word bank data = decodeBusWord busRows word' bank data ↔
      word &&& busMask = word' &&& busMask := by
  constructor
  · obtain ⟨row, hmem, hpattern, hdecode⟩ := decodeBusWord_busRows word bank data
    obtain ⟨row', hmem', hpattern', hdecode'⟩ := decodeBusWord_busRows word' bank data
    intro h
    rw [hdecode, hdecode', Except.ok.injEq] at h
    rw [← hpattern, ← hpattern', pattern_eq_of_make_eq hmem hmem' h]
  · intro h
    obtain ⟨row, hrow⟩ := Option.isSome_iff_exists.1 (busRows_find_isSome word)
    rw [decodeBusWord_eq_find, decodeBusWord_eq_find, ← h, hrow]
    rfl

/-- Bits 13..9 of the transaction word are the direction and the low four bits of the shifted
address (R61, R81). -/
theorem word_extractLsb'_toNat (a : BusAccess) :
    (a.word.extractLsb' 9 5).toNat = a.write.toNat * 16 + ((a.addr >>> 9) &&& 0xF) := by
  have index : (a.addr >>> 9) &&& 0xF = a.addr / 512 % 16 := by
    rw [Nat.shiftRight_eq_div_pow]
    exact Nat.and_two_pow_sub_one_eq_mod _ 4
  have word : a.word.toNat = a.write.toNat * 8192 + a.addr % 8192 := by
    simp only [BusAccess.word, BitVec.toNat_append, BitVec.toNat_ofBool, BitVec.toNat_ofNat]
    rw [← Nat.shiftLeft_add_eq_or_of_lt (Nat.mod_lt _ (by decide)), Nat.shiftLeft_eq]
  have direction := a.write.toNat_lt
  rw [index, BitVec.extractLsb'_toNat, word, Nat.shiftRight_eq_div_pow]
  omega

/-- Two accesses in one direction agree under the mask exactly when they have the same register
index (R61). -/
theorem word_and_busMask_eq_iff {a a' : BusAccess} (hdir : a.write = a'.write) :
    a.word &&& busMask = a'.word &&& busMask ↔
      (a.addr >>> 9) &&& 0xF = (a'.addr >>> 9) &&& 0xF := by
  calc
    _ ↔ a.word.extractLsb' 9 5 = a'.word.extractLsb' 9 5 := and_busMask_eq_iff
    _ ↔ _ := by
      rw [← BitVec.toNat_inj, word_extractLsb'_toNat, word_extractLsb'_toNat, hdir,
        Nat.add_left_cancel_iff]

/-- Settles O4: under the mask the transaction word is the direction and the index, and no two rows
of the table make the same instruction. -/
theorem onlyAddressBits12To9AreDecoded : Obligations.OnlyAddressBits12To9AreDecoded := by
  intro bank write data addr addr'
  exact decodeBusWord_eq_iff.trans
    (word_and_busMask_eq_iff (a := ⟨bank, write, addr, 1, data⟩)
      (a' := ⟨bank, write, addr', 1, data⟩) rfl)

end Sys2Proof.Proofs
end

section
/-! The summary line of a bank, flag by flag (R238). -/

namespace Sys2Proof.Proofs
open Sys2Proof.Machine

/-- A word is not zero exactly when one of its bits is set. -/
theorem ne_zero_iff_exists_getLsbD {w : Nat} {x : BitVec w} :
    x ≠ 0 ↔ ∃ k, k < w ∧ x.getLsbD k = true := by
  calc
    _ ↔ ¬ ∀ k < w, x.getLsbD k = (0#w).getLsbD k := not_congr BitVec.eq_of_getLsbD_eq_iff
    _ ↔ _ := by simp

/-- The summary of a bank is high exactly when some flag is pending and enabled (R12, R32, R238). -/
theorem summary_iff (v : Via) :
    v.summary = true ↔ ∃ k, k < 7 ∧ v.ifr.getLsbD k = true ∧ v.ier.getLsbD k = true := by
  calc
    _ ↔ v.ifr &&& v.ier ≠ 0 := bne_iff_ne
    _ ↔ ∃ k, k < 7 ∧ (v.ifr &&& v.ier).getLsbD k = true := ne_zero_iff_exists_getLsbD
    _ ↔ _ := by simp only [BitVec.getLsbD_and, Bool.and_eq_true]

/-- Settles O23: the line of a bank is the summary of its flags and enables. -/
theorem summaryLineIsAnEnabledPendingFlag : Obligations.SummaryLineIsAnEnabledPendingFlag :=
  fun s bank => summary_iff (s.via bank)

end Sys2Proof.Proofs
end

section
/-! The decoders, row by row: a bus access by the row its masked word meets, a completed byte in the
context of the pending command (R82, R90 to R94), and the round trip through the encoder. -/

namespace Sys2Proof.Proofs
open Sys2Proof.Machine

/-! ## Format BUS -/

/-- A row of R82 is known by its pattern. -/
theorem busRow_eq_of_pattern_eq {row row' : BusRow} (h : row ∈ busRows) (h' : row' ∈ busRows)
    (hpattern : row.pattern = row'.pattern) : row = row' :=
  List.inj_on_of_nodup_map (f := BusRow.pattern) (by decide) h h' hpattern

/-- A one-byte access decodes to the instruction of the row its masked word meets. -/
theorem decodeBus_of_mem_busRows {a : BusAccess} {row : BusRow} (hrow : row ∈ busRows)
    (hsize : a.size = 1) (hword : a.word &&& busMask = row.pattern) :
    decodeBus a = .ok (row.make a.bank a.data) := by
  obtain ⟨row', hrow', hpattern, hdecode⟩ := decodeBusWord_busRows a.word a.bank a.data
  have hsame : row' = row := busRow_eq_of_pattern_eq hrow' hrow (hpattern.trans hword)
  rw [decodeBus, if_pos hsize, hdecode, hsame]

/-- A one-byte access decodes to the instruction of some row. -/
theorem decodeBus_ok_iff {a : BusAccess} {i : Instr} :
    decodeBus a = .ok i ↔
      a.size = 1 ∧
        ∃ row ∈ busRows, row.pattern = a.word &&& busMask ∧ i = row.make a.bank a.data := by
  constructor
  · intro h
    by_cases hsize : a.size = 1
    · obtain ⟨row, hrow, hpattern, hdecode⟩ := decodeBusWord_busRows a.word a.bank a.data
      rw [decodeBus, if_pos hsize, hdecode, Except.ok.injEq] at h
      exact ⟨hsize, row, hrow, hpattern, h.symm⟩
    · simp [decodeBus, hsize] at h
  · rintro ⟨hsize, row, hrow, hpattern, rfl⟩
    exact decodeBus_of_mem_busRows hrow hsize hpattern.symm

/-- The masked word of register `k` is the pattern of the `k`-th row of its direction (R66). -/
theorem word_register_read (bank : BankId) (size : Nat) (data : Byte) :
    ∀ k : Fin 16, (BusAccess.mk bank false (k * 0x200) size data).word &&& busMask =
      busReadRows[k].pattern := by
  simp only [BusAccess.word]
  decide

theorem word_register_write (bank : BankId) (size : Nat) (data : Byte) :
    ∀ k : Fin 16, (BusAccess.mk bank true (k * 0x200) size data).word &&& busMask =
      busWriteRows[k].pattern := by
  simp only [BusAccess.word]
  decide

/-- A read of register `k` at its offset decodes to the `k`-th reading row (R66). -/
theorem decodeBus_register_read (k : Fin 16) (bank : BankId) (data : Byte) :
    decodeBus ⟨bank, false, k * 0x200, 1, data⟩ = .ok (busReadRows[k].make bank data) :=
  decodeBus_of_mem_busRows (List.mem_append_left _ (List.getElem_mem _)) rfl
    (word_register_read bank 1 data k)

/-- A write of register `k` at its offset decodes to the `k`-th writing row (R66). -/
theorem decodeBus_register_write (k : Fin 16) (bank : BankId) (data : Byte) :
    decodeBus ⟨bank, true, k * 0x200, 1, data⟩ = .ok (busWriteRows[k].make bank data) :=
  decodeBus_of_mem_busRows (List.mem_append_right _ (List.getElem_mem _)) rfl
    (word_register_write bank 1 data k)


/-- What every row of R82 makes: a well-formed bus operation on the bank, in the direction of bit 13
of the pattern. -/
theorem busRows_make (bank : BankId) (data : Byte) :
    ∀ row ∈ busRows, (row.make bank data).wellFormed = true ∧ isRtc (row.make bank data) = false ∧
      readBank (row.make bank data) = (if row.pattern.getLsbD 13 then none else some bank) ∧
      writeBank (row.make bank data) = (if row.pattern.getLsbD 13 then some bank else none) := by
  simp only [busRows, busReadRows, busWriteRows, List.cons_append, List.nil_append,
    List.forall_mem_cons, List.not_mem_nil, false_implies, implies_true, and_true]
  and_intros <;> rfl

/-- Bit 13 of the masked word is the direction of the access (R81). -/
theorem word_and_busMask_bit13 (a : BusAccess) : (a.word &&& busMask).getLsbD 13 = a.write := by
  have hword : a.word.getLsbD 13 = a.write := by
    unfold BusAccess.word
    rw [BitVec.getLsbD_append]
    simp
  rw [BitVec.getLsbD_and, hword]
  exact Bool.and_true _

/-- Settles O2: some row meets every masked word, and what it makes is in the word's direction. -/
theorem everyOneByteAccessDecodes : Obligations.EveryOneByteAccessDecodes := by
  intro a hsize
  obtain ⟨row, hrow, hpattern, hdecode⟩ := decodeBusWord_busRows a.word a.bank a.data
  obtain ⟨hwf, -, hread, hwrite⟩ := busRows_make a.bank a.data row hrow
  rw [hpattern, word_and_busMask_bit13] at hread hwrite
  exact ⟨_, by rw [decodeBus, if_pos hsize, hdecode], hwf, hread, hwrite⟩

/-! ## Absolute addresses -/

/-- With separate windows an absolute address inside the window of a bank reaches that bank at its
offset (R63, R66). -/
theorem accessAt_window {p : Params} (bank : BankId) (write : Bool) {offset : Nat} (data : Byte)
    (hsep : p.via1Base + 0x2000 ≤ p.via2Base ∨ p.via2Base + 0x2000 ≤ p.via1Base)
    (hoffset : offset < 0x2000) :
    accessAt p write (windowBase p bank + offset) 1 data = some ⟨bank, write, offset, 1, data⟩ := by
  have hbank : bankAt p (windowBase p bank + offset) = some bank := by
    refine bankAt_eq_some.2 ⟨inWindow_iff.2 (by omega), fun other hother => ?_⟩
    rw [← Bool.not_eq_true, inWindow_iff]
    cases bank <;> cases other <;> simp_all only [windowBase, ne_eq, not_true_eq_false] <;> omega
  simp [accessAt, hbank]

/-- The absolute address of an offset decodes as the offset when the base is a multiple of the
window (R61). -/
theorem decodeBus_base_add {base : Nat} (hbase : base % 0x2000 = 0) (bank : BankId) (write : Bool)
    (offset size : Nat) (data : Byte) :
    decodeBus ⟨bank, write, base + offset, size, data⟩ =
      decodeBus ⟨bank, write, offset, size, data⟩ := by
  obtain ⟨n, rfl⟩ : ∃ n, base = n * 0x2000 := ⟨base / 0x2000, by omega⟩
  exact decodeBus_absolute bank write n offset size data

/-- Settles O3: the k-th reading and writing rows, at the offset and at the absolute address. -/
theorem offsetSelectsTheRegister : Obligations.OffsetSelectsTheRegister := by
  intro bank data k rd wr hrd hwr
  have hk : k < 16 := (List.getElem?_eq_some_iff.1 hrd).1
  obtain rfl : busReadRows[(⟨k, hk⟩ : Fin 16)].make bank data = rd := by
    change (busReadRows.map (·.make bank data))[k]? = some rd at hrd
    exact (List.getElem_map _).symm.trans (List.getElem?_eq_some_iff.1 hrd).2
  obtain rfl : busWriteRows[(⟨k, hk⟩ : Fin 16)].make bank data = wr := by
    change (busWriteRows.map (·.make bank data))[k]? = some wr at hwr
    exact (List.getElem_map _).symm.trans (List.getElem?_eq_some_iff.1 hwr).2
  have hread := decodeBus_register_read ⟨k, hk⟩ bank data
  have hwrite := decodeBus_register_write ⟨k, hk⟩ bank data
  refine ⟨hread, hwrite, fun p hsep => ⟨_, _, accessAt_window bank false data hsep (by omega),
    hread, accessAt_window bank true data hsep (by omega), hwrite, fun hbase => ?_⟩⟩
  exact ⟨(decodeBus_base_add hbase ..).trans hread, (decodeBus_base_add hbase ..).trans hwrite⟩

/-- Settles O5: the width is tested before the word is looked up. -/
theorem wideAccessIsRefused : Obligations.WideAccessIsRefused := by
  intro s a rest hsize
  have hdecode : decodeBus a = .error (.wideAccess a.size) := if_neg hsize
  exact ⟨hdecode, fun hpending => by simp [step, hpending, decodeStimulus, hdecode]⟩

/-! ## Format EVENT -/

/-- Settles O6. -/
theorem eventCodesDecode : Obligations.EventCodesDecode := by
  intro dt bank line level
  refine ⟨rfl, rfl, rfl, rfl, rfl, rfl, rfl, rfl, fun code hcode => ?_⟩
  simp only [decodeEvent]
  split
  case h_9 => rfl
  all_goals omega

/-! ## Format RTC -/

/-- Context FIRST with bit 7 clear: none of the rules of R91 takes the byte (R92). -/
theorem decodeRtc_first_write : ∀ byte : Byte, byte.getLsbD 7 = false →
    decodeRtc 0x00 byte = .rtcWrcmd (byte.extractLsb' 0 7) := by decide

/-- Context FIRST with bit 7 set: the rows of R91 but the dead one, each with the bytes it takes. -/
theorem decodeRtc_first_read : ∀ byte : Byte, byte.getLsbD 7 = true →
    decodeRtc 0x00 byte =
      if byte = 0x81 then .rtcRdsec0 else if byte = 0x85 then .rtcRdsec1
      else if byte = 0x89 then .rtcRdsec2 else if byte = 0x8D then .rtcRdsec3
      else if byte &&& 0xF3 = 0xA1 then .rtcRdpram (aaField byte)
      else if byte &&& 0xF8 = 0xB8 then .rtcXrdsel (sectorField byte)
      else .rtcRdnop byte := by decide

/-- Context XREAD has one row (R93). -/
theorem decodeRtc_xread {cmd : Byte} (h7 : cmd.getLsbD 7 = true) (byte : Byte) :
    decodeRtc cmd byte = .rtcXrd (sectorField cmd) (addrField byte) := by
  have hne : cmd ≠ 0 := by rintro rfl; simp at h7
  rw [decodeRtc, if_neg hne, if_pos h7]

/-- Context WDATA: the rows of R94 but the dead one, each with the pending commands it takes. -/
theorem decodeRtc_wdata {cmd : Byte} (hne : cmd ≠ 0x00) (h7 : cmd.getLsbD 7 = false) (byte : Byte) :
    decodeRtc cmd byte =
      if cmd &&& 0xF8 = 0x38 then .rtcXwr (sectorField cmd) byte
      else if cmd &&& 0xF3 = 0x21 then .rtcWrpram (aaField cmd) byte
      else if cmd = 0x35 then .rtcWprot (byte.getLsbD 0)
      else if cmd = 0x01 then .rtcWrsec0 byte else if cmd = 0x05 then .rtcWrsec1 byte
      else if cmd = 0x09 then .rtcWrsec2 byte else if cmd = 0x0D then .rtcWrsec3 byte
      else .rtcWrnop cmd byte := by
  have whole (b : Byte) : b &&& 0xFF = b := BitVec.and_allOnes
  rw [decodeRtc, if_neg hne, h7, if_neg Bool.false_ne_true]
  simp only [rtcWdataRules, firstRule, whole]
  by_cases h : cmd &&& 0xF3 = 0x21 <;> simp only [h, if_true, if_false]

/-- The bytes with bit 7 set that the rows of R91 before the last leave (R168). -/
theorem isOtherRead_iff : ∀ byte : Byte, isOtherRead byte = true ↔
    byte.getLsbD 7 = true ∧ ¬byte = 0x81 ∧ ¬byte = 0x85 ∧ ¬byte = 0x89 ∧ ¬byte = 0x8D ∧
      ¬byte &&& 0xF3 = 0xA1 ∧ ¬byte &&& 0xF8 = 0xB8 := by decide

/-- A first byte of no pattern stands for the last row of R91 (R168). -/
theorem decodeRtc_other_read {byte : Byte} (h : isOtherRead byte = true) :
    decodeRtc 0x00 byte = .rtcRdnop byte := by
  obtain ⟨h7, h1, h2, h3, h4, h5, h6⟩ := (isOtherRead_iff byte).1 h
  rw [decodeRtc_first_read byte h7, if_neg h1, if_neg h2, if_neg h3, if_neg h4, if_neg h5,
    if_neg h6]

/-- The first bytes of a low-bank read (R165). -/
theorem decodeRtc_low_bank_read {byte : Byte} (h : byte &&& 0xF3 = 0xA1) :
    decodeRtc 0x00 byte = .rtcRdpram (aaField byte) := by
  have hbyte : ∀ b : Byte, b &&& 0xF3 = 0xA1 →
      b.getLsbD 7 = true ∧ ¬b = 0x81 ∧ ¬b = 0x85 ∧ ¬b = 0x89 ∧ ¬b = 0x8D := by decide
  obtain ⟨h7, h1, h2, h3, h4⟩ := hbyte byte h
  rw [decodeRtc_first_read byte h7, if_neg h1, if_neg h2, if_neg h3, if_neg h4, if_pos h]

/-- The first bytes that designate an extended read (R167). -/
theorem decodeRtc_designator {byte : Byte} (h : byte &&& 0xF8 = 0xB8) :
    decodeRtc 0x00 byte = .rtcXrdsel (sectorField byte) := by
  have hbyte : ∀ b : Byte, b &&& 0xF8 = 0xB8 → b.getLsbD 7 = true ∧ ¬b = 0x81 ∧ ¬b = 0x85 ∧
      ¬b = 0x89 ∧ ¬b = 0x8D ∧ ¬b &&& 0xF3 = 0xA1 := by decide
  obtain ⟨h7, h1, h2, h3, h4, h5⟩ := hbyte byte h
  rw [decodeRtc_first_read byte h7, if_neg h1, if_neg h2, if_neg h3, if_neg h4, if_neg h5,
    if_pos h]

/-- The pending commands that the rows of R94 before the last leave (R176). -/
theorem isOtherWrite_iff : ∀ cmd : Byte, isOtherWrite cmd = true ↔
    cmd.getLsbD 7 = false ∧ cmd ≠ 0x00 ∧ ¬cmd &&& 0xF8 = 0x38 ∧ ¬cmd &&& 0xF3 = 0x21 ∧
      ¬cmd = 0x35 ∧ ¬cmd = 0x01 ∧ ¬cmd = 0x05 ∧ ¬cmd = 0x09 ∧ ¬cmd = 0x0D := by decide

/-- A pending command of no pattern stands for the last row of R94 (R176). -/
theorem decodeRtc_other_write {cmd : Byte} (h : isOtherWrite cmd = true) (byte : Byte) :
    decodeRtc cmd byte = .rtcWrnop cmd byte := by
  obtain ⟨h7, hne, h1, h2, h3, h4, h5, h6, h8⟩ := (isOtherWrite_iff cmd).1 h
  rw [decodeRtc_wdata hne h7, if_neg h1, if_neg h2, if_neg h3, if_neg h4, if_neg h5, if_neg h6,
    if_neg h8]

/-- No completed byte stands for a dead row, a bus access or an event (R90, R166). -/
theorem decodeRtc_wellFormed (cmd byte : Byte) :
    (decodeRtc cmd byte).wellFormed = true ∧ isRtc (decodeRtc cmd byte) = true := by
  by_cases hne : cmd = 0x00
  · subst hne
    cases h7 : byte.getLsbD 7
    case false =>
      rw [decodeRtc_first_write byte h7]
      exact ⟨rfl, rfl⟩
    case true =>
      rw [decodeRtc_first_read byte h7]
      split_ifs with h1 h2 h3 h4 h5 h6
      case neg => exact ⟨(isOtherRead_iff byte).2 ⟨h7, h1, h2, h3, h4, h5, h6⟩, rfl⟩
      all_goals exact ⟨rfl, rfl⟩
  cases h7 : cmd.getLsbD 7
  case true =>
    rw [decodeRtc_xread h7]
    exact ⟨rfl, rfl⟩
  case false =>
    rw [decodeRtc_wdata hne h7]
    split_ifs with h1 h2 h3 h4 h5 h6 h8
    case neg => exact ⟨(isOtherWrite_iff cmd).2 ⟨h7, hne, h1, h2, h3, h4, h5, h6, h8⟩, rfl⟩
    all_goals exact ⟨rfl, rfl⟩

theorem decodeRtc_isRtc (cmd byte : Byte) : isRtc (decodeRtc cmd byte) = true :=
  (decodeRtc_wellFormed cmd byte).2

/-- The pending commands of an extended write are those of R94's first row. -/
theorem decodeRtc_extended_write {cmd : Byte} (h : cmd &&& 0xF8 = 0x38) (byte : Byte) :
    decodeRtc cmd byte = .rtcXwr (sectorField cmd) byte := by
  have hcmd : ∀ c : Byte, c &&& 0xF8 = 0x38 → c ≠ 0x00 ∧ c.getLsbD 7 = false := by decide
  rw [decodeRtc_wdata (hcmd cmd h).1 (hcmd cmd h).2, if_pos h]

/-- The pending commands of a low-bank write (R94). -/
theorem decodeRtc_low_bank_write {cmd : Byte} (h : cmd &&& 0xF3 = 0x21) (byte : Byte) :
    decodeRtc cmd byte = .rtcWrpram (aaField cmd) byte := by
  have hcmd : ∀ c : Byte, c &&& 0xF3 = 0x21 →
      c ≠ 0x00 ∧ c.getLsbD 7 = false ∧ ¬c &&& 0xF8 = 0x38 := by decide
  obtain ⟨hne, h7, hrow⟩ := hcmd cmd h
  rw [decodeRtc_wdata hne h7, if_neg hrow, if_pos h]

theorem sectorField_toNat (b : Byte) : (sectorField b).toNat = b.toNat % 8 := by
  simp [sectorField, BitVec.extractLsb'_toNat]

theorem addrField_toNat (b : Byte) : (addrField b).toNat = b.toNat / 4 % 32 := by
  simp [addrField, BitVec.extractLsb'_toNat, Nat.shiftRight_eq_div_pow]

theorem aaField_toNat (b : Byte) : (aaField b).toNat = b.toNat / 4 % 4 := by
  simp [aaField, BitVec.extractLsb'_toNat, Nat.shiftRight_eq_div_pow]

/-- Settles O7: the three contexts, each by the equation of its rows. -/
theorem rtcByteDecodesInItsContext : Obligations.RtcByteDecodesInItsContext := by
  intro cmd byte
  refine ⟨?first_write, ?first_read, ?xread, ?wdata, decodeRtc_wellFormed cmd byte⟩
  case first_write =>
    rintro rfl h7
    have hlt : byte.toNat < 2 ^ 7 := by
      have hmsb := BitVec.msb_eq_false_iff_two_mul_lt.1 ((BitVec.msb_eq_getLsbD_last byte).trans h7)
      omega
    refine ⟨_, decodeRtc_first_write byte h7, ?_⟩
    rw [BitVec.extractLsb'_toNat]
    exact Nat.mod_eq_of_lt hlt
  case first_read =>
    rintro rfl h7
    have hlow : ∀ b : Byte, b ∈ [0xA1, 0xA5, 0xA9, 0xAD] → b &&& 0xF3 = 0xA1 := by decide
    have hrange : ∀ b : Byte, 0xB8 ≤ b.toNat ∧ b.toNat ≤ 0xBF → b &&& 0xF8 = 0xB8 := by decide
    refine ⟨?_, ?_, ?_, ?_, fun h => ?_, fun h => ?_, fun hrows hsel => ?_⟩
    · rintro rfl; rfl
    · rintro rfl; rfl
    · rintro rfl; rfl
    · rintro rfl; rfl
    · exact ⟨_, decodeRtc_low_bank_read (hlow byte h), aaField_toNat byte⟩
    · exact ⟨_, decodeRtc_designator (hrange byte h), sectorField_toNat byte⟩
    · refine decodeRtc_other_read ?_
      revert byte; decide
  case xread =>
    intro h7
    exact ⟨_, _, decodeRtc_xread h7 byte, sectorField_toNat cmd, addrField_toNat byte⟩
  case wdata =>
    intro hne h7
    have hrange : ∀ c : Byte, 0x38 ≤ c.toNat ∧ c.toNat ≤ 0x3F → c &&& 0xF8 = 0x38 := by decide
    have hlow : ∀ c : Byte, c ∈ [0x21, 0x25, 0x29, 0x2D] → c &&& 0xF3 = 0x21 := by decide
    refine ⟨fun h => ?_, fun h => ?_, ?_, ?_, ?_, ?_, ?_, fun hrows hxwr => ?_⟩
    · exact ⟨_, decodeRtc_extended_write (hrange cmd h) byte, sectorField_toNat cmd⟩
    · exact ⟨_, decodeRtc_low_bank_write (hlow cmd h) byte, aaField_toNat cmd⟩
    · rintro rfl; rfl
    · rintro rfl; rfl
    · rintro rfl; rfl
    · rintro rfl; rfl
    · rintro rfl; rfl
    · refine decodeRtc_other_write ?_ byte
      revert cmd; decide

/-- Settles O8. -/
theorem specWordsDecode : Obligations.SpecWordsDecode :=
  ⟨rfl, rfl, rfl, rfl, rfl, rfl, rfl, rfl, rfl, rfl⟩

/-- Settles O40: a dead row is not well formed, and what a byte stands for is. -/
theorem ignoredCommandsChangeNothing : Obligations.IgnoredCommandsChangeNothing := by
  intro s byte data aa
  refine ⟨fun h7 hrows hsel => decodeRtc_other_read ?_, rfl,
    fun cmd b => ⟨fun h => ?_, fun h => ?_⟩, rfl, rfl⟩
  · revert byte; decide
  · simpa [h, Instr.wellFormed] using decodeRtc_wellFormed cmd b
  · simpa [h, Instr.wellFormed] using decodeRtc_wellFormed cmd b

/-! ## The round trip -/

/-- A row of format RTC comes back from its canonical context and byte (R91 to R94). -/
theorem decode_encode_rtc (i : Instr) (hrtc : isRtc i = true) (hwf : i.wellFormed = true) :
    decode (encode i) = .ok i := by
  cases i with
  | rtcRdsec0 | rtcRdsec1 | rtcRdsec2 | rtcRdsec3 => rfl
  | rtcRdpram aa => revert aa; decide
  | rtcXrdsel sector => revert sector; decide
  | rtcRdnop byte => exact congrArg Except.ok (decodeRtc_other_read hwf)
  | rtcWrcmd code => revert code; decide
  | rtcXrd sector addr =>
    have hcmd : ∀ k : BitVec 3, (0b10111#5 ++ k).getLsbD 7 = true ∧
        sectorField (0b10111#5 ++ k) = k := by decide
    have haddr : ∀ k : BitVec 5, addrField (0b0#1 ++ k ++ 0b00#2) = k := by decide
    rw [encode, decode, decodeRtc_xread (hcmd sector).1, (hcmd sector).2, haddr]
  | rtcXwr sector byte =>
    have hcmd : ∀ k : BitVec 3, (0b00111#5 ++ k) &&& 0xF8#8 = 0x38 ∧
        sectorField (0b00111#5 ++ k) = k := by decide
    rw [encode, decode, decodeRtc_extended_write (hcmd sector).1, (hcmd sector).2]
  | rtcWrpram aa data =>
    have hcmd : ∀ k : BitVec 2, (0b0010#4 ++ k ++ 0b01#2) &&& 0xF3#8 = 0x21 ∧
        aaField (0b0010#4 ++ k ++ 0b01#2) = k := by decide
    rw [encode, decode, decodeRtc_low_bank_write (hcmd aa).1, (hcmd aa).2]
  | rtcWprot p => cases p <;> rfl
  | rtcWrsec0 data | rtcWrsec1 data | rtcWrsec2 data | rtcWrsec3 data => rfl
  | rtcWrnop cmd data => rw [encode, decode, decodeRtc_other_write hwf]
  | rtcRdpramDead aa => cases hwf
  | rtcWrpramDead aa data => cases hwf
  | _ => cases hrtc

/-- Settles O1: each bus operation by the row of its register, each event by its code, each row of
format RTC by the context it is encoded in. -/
theorem decodeReadsBackEveryEncoding : Obligations.DecodeReadsBackEveryEncoding := by
  intro i hwf
  cases i with
  | rdOrb b => exact decodeBus_register_read 0 b _
  | wrOrb b d => exact decodeBus_register_write 0 b d
  | rdOrah b => exact decodeBus_register_read 1 b _
  | wrOrah b d => exact decodeBus_register_write 1 b d
  | rdDdrb b => exact decodeBus_register_read 2 b _
  | wrDdrb b d => exact decodeBus_register_write 2 b d
  | rdDdra b => exact decodeBus_register_read 3 b _
  | wrDdra b d => exact decodeBus_register_write 3 b d
  | rdT1cl b => exact decodeBus_register_read 4 b _
  | wrT1cl b d => exact decodeBus_register_write 4 b d
  | rdT1ch b => exact decodeBus_register_read 5 b _
  | wrT1ch b d => exact decodeBus_register_write 5 b d
  | rdT1ll b => exact decodeBus_register_read 6 b _
  | wrT1ll b d => exact decodeBus_register_write 6 b d
  | rdT1lh b => exact decodeBus_register_read 7 b _
  | wrT1lh b d => exact decodeBus_register_write 7 b d
  | rdT2cl b => exact decodeBus_register_read 8 b _
  | wrT2cl b d => exact decodeBus_register_write 8 b d
  | rdT2ch b => exact decodeBus_register_read 9 b _
  | wrT2ch b d => exact decodeBus_register_write 9 b d
  | rdSr b => exact decodeBus_register_read 10 b _
  | wrSr b d => exact decodeBus_register_write 10 b d
  | rdAcr b => exact decodeBus_register_read 11 b _
  | wrAcr b d => exact decodeBus_register_write 11 b d
  | rdPcr b => exact decodeBus_register_read 12 b _
  | wrPcr b d => exact decodeBus_register_write 12 b d
  | rdIfr b => exact decodeBus_register_read 13 b _
  | wrIfr b d => exact decodeBus_register_write 13 b d
  | rdIer b => exact decodeBus_register_read 14 b _
  | wrIer b d => exact decodeBus_register_write 14 b d
  | rdOra b => exact decodeBus_register_read 15 b _
  | wrOra b d => exact decodeBus_register_write 15 b d
  | reset | advance dt | fireVbl | fireSec | fireAdbpoll => rfl
  | tickT1 b | tickT2 b | extirq b line level => rfl
  | _ => exact decode_encode_rtc _ rfl hwf

end Sys2Proof.Proofs
end

section
/-! The rows of format RTC by the fields they read and write (R160 to R178). -/

namespace Sys2Proof.Proofs
open Sys2Proof.Machine

/-! ## The rows of format RTC -/

/-- Every row of format RTC completes, within the sequencer and the PRAM (R158). -/
theorem exec_rtc_completes {i : Instr} (hrtc : isRtc i = true) (s : State) :
    ∃ t, exec i s = .next t ∧ OnlySequencerAndPram s t := by
  rw [← execRtcCommand_eq_exec i s hrtc]
  exact execRtcCommand_frame i s

/-- What a row of format RTC can do to the queue of responses and to the PRAM: it queues eight bits
or none, and stores one byte inside the PRAM or none; the bias stays (R39, R172, R173, R179). -/
structure CommandEffect (s t : State) : Prop where
  bias : t.rtc.tickOffset = s.rtc.tickOffset
  queue : (t.rtc.dataIn = s.rtc.dataIn ∧ t.rtc.dataInCount = s.rtc.dataInCount) ∨
    t.rtc.dataInCount = 8
  pram : t.pram = s.pram ∨
    ∃ a v, a < Config.pramSize ∧ t.pram = Memory.write s.pram a v

theorem exec_rtc_effect {i : Instr} {s t : State} (hrtc : isRtc i = true)
    (h : exec i s = .next t) : CommandEffect s t := by
  have stored (a : Nat) (v : Byte) :
      (s.pramStore a v).pram = s.pram ∨ (s.pramStore a v).pram = Memory.write s.pram a v := by
    rw [pramStore_pram]
    exact ite_eq_or_eq ..
  cases i with
  | rtcRdsec0 | rtcRdsec1 | rtcRdsec2 | rtcRdsec3 | rtcRdpram aa | rtcXrd sector addr =>
    cases h
    exact ⟨rfl, .inr rfl, .inl rfl⟩
  | rtcRdpramDead aa | rtcXrdsel sector | rtcRdnop byte | rtcWrcmd code | rtcWrpramDead aa data
  | rtcWprot p | rtcWrsec0 data | rtcWrsec1 data | rtcWrsec2 data | rtcWrsec3 data
  | rtcWrnop cmd data =>
    cases h
    exact ⟨rfl, .inl ⟨rfl, rfl⟩, .inl rfl⟩
  | rtcXwr sector byte =>
    simp only [exec, execRtcXwr] at h
    split at h
    · cases h
      exact ⟨rfl, .inl ⟨rfl, rfl⟩, .inl rfl⟩
    · cases h
      exact ⟨by simp, .inl (by simp),
        (stored _ _).imp_right fun hp => ⟨_, _, xpramAddr_lt _ _ _, hp⟩⟩
  | rtcWrpram aa data =>
    cases h
    exact ⟨by simp, .inl (by simp),
      (stored _ _).imp_right fun hp => ⟨_, _, lowPramAddr_lt _ _, hp⟩⟩
  | _ => cases hrtc

/-- The sequencer with the fields of the bit assembly and the remembered port replaced; no row of
format RTC reads or writes them (R154, R157). -/
def withSerial (r : Rtc) (dataOut : Byte) (count : Nat) (lastPortB : Byte) : Rtc :=
  { r with dataOut := dataOut, dataOutCount := count, lastPortB := lastPortB }

/-- The two states are one for a row of format RTC: they agree in every field that such a row reads
or writes, and in no other field that they need to. -/
structure SameCommandState (s s' : State) : Prop where
  pram : s'.pram = s.pram
  params : s'.params = s.params
  now : s'.now = s.now
  rtc : s'.rtc = withSerial s.rtc s'.rtc.dataOut s'.rtc.dataOutCount s'.rtc.lastPortB

/-- A row of format RTC does the same to two states that are one for it, and leaves the rest of the
sequencer of each as it was. -/
theorem exec_rtc_congr {i : Instr} (hrtc : isRtc i = true) {s s' t' : State}
    (hs : SameCommandState s s') (h' : exec i s' = .next t') :
    ∃ t, exec i s = .next t ∧ t'.pram = t.pram ∧
      t'.rtc = withSerial t.rtc s'.rtc.dataOut s'.rtc.dataOutCount s'.rtc.lastPortB := by
  obtain ⟨hpram, hparams, hnow, hr⟩ := hs
  have halt : s'.rtc.alt = s.rtc.alt := by rw [hr]; rfl
  have hprotect : s'.rtc.wprotect = s.rtc.wprotect := by rw [hr]; rfl
  generalize s'.rtc.dataOut = d, s'.rtc.dataOutCount = n, s'.rtc.lastPortB = l at hr ⊢
  cases i with
  | rtcXwr sector byte =>
    by_cases hz : s.rtc.alt = 0x00
    · simp only [exec, execRtcXwr, halt, hz, if_true] at h' ⊢
      cases h'
      exact ⟨_, rfl, hpram, by simp [hr, withSerial]⟩
    · simp only [exec, execRtcXwr, halt, hz, if_false, hparams] at h' ⊢
      cases h'
      exact ⟨_, rfl, by simp [pramStore_pram, hprotect, hpram], by simp [hr, withSerial]⟩
  | rtcWrpram aa data =>
    cases h'
    exact ⟨_, rfl, by simp [pramStore_pram, hprotect, hpram, hparams], by simp [hr, withSerial]⟩
  | rtcRdsec0 | rtcRdsec1 | rtcRdsec2 | rtcRdsec3 | rtcRdpram aa | rtcRdpramDead aa
  | rtcXrdsel sector | rtcRdnop byte | rtcWrcmd code | rtcXrd sector addr
  | rtcWrpramDead aa data | rtcWprot p | rtcWrsec0 data | rtcWrsec1 data | rtcWrsec2 data
  | rtcWrsec3 data | rtcWrnop cmd data =>
    cases h'
    refine ⟨_, rfl, ?_⟩
    simp [State.seconds, State.pramRead, hpram, hparams, hnow, hr, withSerial]
  | _ => cases hrtc

end Sys2Proof.Proofs
end

section
/-! The write of port B of VIA1: the store, the RTC step by the edge and the direction it meets, the
ADB transfer, the remembered port (R111, R150 to R158, R191 to R196). -/

namespace Sys2Proof.Proofs
open Sys2Proof.Machine

/-! ## The store -/

/-- Port B after the masked store, bit by bit (R111). -/
theorem storePortB_bit (s : State) (data : Byte) (k : Nat) :
    (s.storePortB .via1 data).via1.b.getLsbD k = storedBit s.via1 data k :=
  maskedStore_bit ..

theorem storedBit_of_output {v : Via} {k : Nat} (h : v.dirb.getLsbD k = true) (data : Byte) :
    storedBit v data k = data.getLsbD k := if_pos h

theorem storedBit_of_input {v : Via} {k : Nat} (h : v.dirb.getLsbD k = false) (data : Byte) :
    storedBit v data k = v.b.getLsbD k := by
  rw [storedBit, h, if_neg Bool.false_ne_true]

/-! ## One bit -/

/-- One more bit at the low end of an assembled byte, the top bit lost (R154). -/
def shiftIn (d : Byte) (bit : Bool) : Byte := d <<< 1 ||| BitVec.zeroExtend 8 (BitVec.ofBool bit)

theorem shiftIn_toNat (d : Byte) (bit : Bool) :
    (shiftIn d bit).toNat = 2 * d.toNat % 256 + bit.toNat := by
  revert d bit; decide

theorem takeBit_eq (s : State) : s.takeBit = s.setRtc { s.rtc with
    dataOut := shiftIn s.rtc.dataOut (s.via1.b.getLsbD 0)
    dataOutCount := s.rtc.dataOutCount + 1 } := by
  have hmask : ∀ b : Byte, b &&& Config.rtcDataMask =
      BitVec.zeroExtend 8 (BitVec.ofBool (b.getLsbD 0)) := by decide
  rw [State.takeBit, hmask, shiftIn]

theorem presentBit_of_queued {s : State} (h : 0 < s.rtc.dataInCount) :
    s.presentBit = { s with
      via1 := { s.via1 with b := withRtcData s.via1.b (s.rtc.dataIn.getLsbD 7) }
      rtc := { s.rtc with dataIn := s.rtc.dataIn <<< 1, dataInCount := s.rtc.dataInCount - 1 } } :=
  if_pos h

theorem presentBit_of_empty {s : State} (h : s.rtc.dataInCount = 0) : s.presentBit = s :=
  if_neg (by omega)

theorem moveBit_of_no_edge {s : State}
    (h : s.via1.b.getLsbD 1 = s.rtc.lastPortB.getLsbD 1) : s.moveBit = s := by
  rw [State.moveBit, risingEdge_bit, fallingEdge_bit, h, Bool.not_and_self, Bool.and_not_self]
  simp

theorem moveBit_output_rising {s : State} (hdir : s.via1.dirb.getLsbD 0 = true)
    (hlast : s.rtc.lastPortB.getLsbD 1 = false) (hclock : s.via1.b.getLsbD 1 = true) :
    s.moveBit = s.takeBit := by
  rw [State.moveBit, hostToChip_bit, hdir, if_pos rfl, risingEdge_bit, hlast, hclock]
  rfl

theorem moveBit_output_not_rising {s : State} (hdir : s.via1.dirb.getLsbD 0 = true)
    (h : s.rtc.lastPortB.getLsbD 1 = true ∨ s.via1.b.getLsbD 1 = false) : s.moveBit = s := by
  rw [State.moveBit, hostToChip_bit, hdir, if_pos rfl, risingEdge_bit, if_neg]
  rcases h with h | h <;> rw [h] <;> simp

theorem moveBit_input_falling {s : State} (hdir : s.via1.dirb.getLsbD 0 = false)
    (hlast : s.rtc.lastPortB.getLsbD 1 = true) (hclock : s.via1.b.getLsbD 1 = false) :
    s.moveBit = s.presentBit := by
  rw [State.moveBit, hostToChip_bit, hdir, if_neg Bool.false_ne_true, fallingEdge_bit, hlast,
    hclock]
  rfl

theorem moveBit_input_not_falling {s : State} (hdir : s.via1.dirb.getLsbD 0 = false)
    (h : s.rtc.lastPortB.getLsbD 1 = false ∨ s.via1.b.getLsbD 1 = true) : s.moveBit = s := by
  rw [State.moveBit, hostToChip_bit, hdir, if_neg Bool.false_ne_true, fallingEdge_bit, if_neg]
  rcases h with h | h <;> rw [h] <;> simp

/-- What the bit transfer can do: nothing, take one bit, or present one of those queued. -/
theorem moveBit_cases (s : State) :
    s.moveBit = s ∨ s.moveBit = s.takeBit ∨
      (s.via1.dirb.getLsbD 0 = false ∧ 0 < s.rtc.dataInCount ∧ s.moveBit = s.presentBit) := by
  cases hdir : s.via1.dirb.getLsbD 0
  case true =>
    by_cases h : s.rtc.lastPortB.getLsbD 1 = true ∨ s.via1.b.getLsbD 1 = false
    · exact .inl (moveBit_output_not_rising hdir h)
    · simp only [not_or, Bool.not_eq_true, Bool.not_eq_false] at h
      exact .inr (.inl (moveBit_output_rising hdir h.1 h.2))
  case false =>
    by_cases h : s.rtc.lastPortB.getLsbD 1 = false ∨ s.via1.b.getLsbD 1 = true
    · exact .inl (moveBit_input_not_falling hdir h)
    · simp only [not_or, Bool.not_eq_true, Bool.not_eq_false] at h
      have hmove := moveBit_input_falling hdir h.1 h.2
      rcases Nat.eq_zero_or_pos s.rtc.dataInCount with hempty | hqueued
      · exact .inl (hmove.trans (presentBit_of_empty hempty))
      · exact .inr (.inr ⟨rfl, hqueued, hmove⟩)

/-! ## The byte -/

/-- `Dispatch` is the meaning of the row the byte stands for (R158). -/
theorem exec_decodeRtc (s : State) (byte : Byte) :
    exec (decodeRtc s.rtc.cmd byte) s = .next (s.dispatch byte) := by
  have hrtc := decodeRtc_isRtc s.rtc.cmd byte
  obtain ⟨t, ht, -⟩ := exec_rtc_completes hrtc s
  rw [ht, State.dispatch, execRtcCommand_eq_exec _ _ hrtc, ht, nextOr]

theorem completeByte_of_ne {s : State} (h : s.rtc.dataOutCount ≠ 8) : s.completeByte = s :=
  if_neg h

theorem completeByte_of_eq {s : State} (h : s.rtc.dataOutCount = 8) :
    s.completeByte = (s.dispatch s.rtc.dataOut).setRtc
      { (s.dispatch s.rtc.dataOut).rtc with dataOut := 0x00, dataOutCount := 0 } :=
  if_pos h

theorem rtcStep_of_deselected {s : State} (h : s.via1.b.getLsbD 2 = true) : s.rtcStep = s := by
  rw [State.rtcStep, rtcEnabled_bit, h]
  rfl

theorem rtcStep_of_selected {s : State} (h : s.via1.b.getLsbD 2 = false) :
    s.rtcStep = s.moveBit.completeByte := by
  rw [State.rtcStep, rtcEnabled_bit, h]
  rfl

/-- With fewer than eight bits in, a step that moves no bit changes nothing. -/
theorem rtcStep_of_no_move {s : State} (hcount : s.rtc.dataOutCount < 8) (hmove : s.moveBit = s) :
    s.rtcStep = s := by
  cases h : s.via1.b.getLsbD 2
  · rw [rtcStep_of_selected h, hmove, completeByte_of_ne (by omega)]
  · exact rtcStep_of_deselected h

/-- The eighth bit completes the byte, which is dispatched as by the state `z` (R156, R158). -/
theorem rtcStep_eighth_bit {s z : State} (hz : SameCommandState z s)
    (hsel : s.via1.b.getLsbD 2 = false) (hmove : s.moveBit = s.takeBit)
    (hcount : s.rtc.dataOutCount = 7) :
    ∃ u, exec (decodeRtc z.rtc.cmd (shiftIn s.rtc.dataOut (s.via1.b.getLsbD 0))) z = .next u ∧
      s.rtcStep.pram = u.pram ∧ s.rtcStep.rtc = withSerial u.rtc 0x00 0 s.rtc.lastPortB := by
  have htake := takeBit_eq s
  have hcmd : s.takeBit.rtc.cmd = z.rtc.cmd := by rw [htake, setRtc_rtc, hz.rtc]; rfl
  have hsame : SameCommandState z s.takeBit := by
    refine ⟨hz.pram, hz.params, hz.now, ?_⟩
    rw [htake, setRtc_rtc, hz.rtc]
    rfl
  have hexec := exec_decodeRtc s.takeBit (shiftIn s.rtc.dataOut (s.via1.b.getLsbD 0))
  rw [hcmd] at hexec
  obtain ⟨u, hu, hpram, hrtc⟩ := exec_rtc_congr (decodeRtc_isRtc _ _) hsame hexec
  have hbyte : s.takeBit.rtc.dataOut = shiftIn s.rtc.dataOut (s.via1.b.getLsbD 0) := by
    rw [htake]
    rfl
  have hdone := completeByte_of_eq (s := s.takeBit) (by rw [htake, setRtc_rtc, hcount])
  rw [← hmove, ← rtcStep_of_selected hsel, hmove, hbyte] at hdone
  refine ⟨u, hu, ?_, ?_⟩
  · rw [hdone]
    exact hpram
  · rw [hdone, setRtc_rtc, hrtc]
    rfl

/-! ## The whole write -/

/-- The state after a write of port B of VIA1 (R111). -/
def writePortB1 (s : State) (data : Byte) : State := (s.storePortB .via1 data).hookVia1

theorem exec_wrOrb_via1 (data : Byte) (s : State) :
    exec (.wrOrb .via1 data) s = .next (writePortB1 s data) := rfl

/-- The hook after the RTC step: one call, then the port is remembered. -/
theorem hookVia1_frame (s : State) :
    ∃ call sr b, s.hookVia1 =
      { s.rtcStep.adbAsked call with
        via1 := { s.rtcStep.via1 with sr := sr, b := b }
        rtc := { s.rtcStep.rtc with lastPortB := b } } ∧
      ∀ k, k ≠ 3 → b.getLsbD k = s.rtcStep.via1.b.getLsbD k := by
  obtain ⟨call, sr, b, htransfer, hb⟩ := adbTransfer_frame s.rtcStep
  exact ⟨call, sr, b, by rw [State.hookVia1, htransfer]; rfl, hb⟩

/-- What a write of port B of VIA1 can change at all. -/
theorem writePortB1_frame (s : State) (data : Byte) :
    ∃ call, writePortB1 s data = { s with
      via1 := { s.via1 with b := (writePortB1 s data).via1.b, sr := (writePortB1 s data).via1.sr }
      rtc := (writePortB1 s data).rtc
      pram := (writePortB1 s data).pram
      adbScript := s.adbScript.tail
      adbCalls := s.adbCalls + 1
      outputs := .adbCall call :: s.outputs } := by
  obtain ⟨call, sr, b, hhook, -⟩ := hookVia1_frame (s.storePortB .via1 data)
  obtain ⟨r, p, b', hstep, -⟩ := rtcStep_frame (s.storePortB .via1 data)
  exact ⟨call, by rw [writePortB1, hhook, hstep]; rfl⟩

@[simp] theorem writePortB1_via2 (s : State) (data : Byte) :
    (writePortB1 s data).via2 = s.via2 := by
  obtain ⟨call, hframe⟩ := writePortB1_frame s data
  rw [hframe]

@[simp] theorem writePortB1_now (s : State) (data : Byte) :
    (writePortB1 s data).now = s.now := by
  obtain ⟨call, hframe⟩ := writePortB1_frame s data
  rw [hframe]

@[simp] theorem writePortB1_params (s : State) (data : Byte) :
    (writePortB1 s data).params = s.params := by
  obtain ⟨call, hframe⟩ := writePortB1_frame s data
  rw [hframe]

@[simp] theorem writePortB1_lines (s : State) (data : Byte) :
    (writePortB1 s data).lines = s.lines := by
  obtain ⟨call, hframe⟩ := writePortB1_frame s data
  rw [hframe]

@[simp] theorem writePortB1_pending (s : State) (data : Byte) :
    (writePortB1 s data).pending = s.pending := by
  obtain ⟨call, hframe⟩ := writePortB1_frame s data
  rw [hframe]

@[simp] theorem writePortB1_nextVbl (s : State) (data : Byte) :
    (writePortB1 s data).nextVbl = s.nextVbl := by
  obtain ⟨call, hframe⟩ := writePortB1_frame s data
  rw [hframe]

@[simp] theorem writePortB1_nextSec (s : State) (data : Byte) :
    (writePortB1 s data).nextSec = s.nextSec := by
  obtain ⟨call, hframe⟩ := writePortB1_frame s data
  rw [hframe]

@[simp] theorem writePortB1_nextAdb (s : State) (data : Byte) :
    (writePortB1 s data).nextAdb = s.nextAdb := by
  obtain ⟨call, hframe⟩ := writePortB1_frame s data
  rw [hframe]

@[simp] theorem writePortB1_adbCalls (s : State) (data : Byte) :
    (writePortB1 s data).adbCalls = s.adbCalls + 1 := by
  obtain ⟨call, hframe⟩ := writePortB1_frame s data
  rw [hframe]

@[simp] theorem writePortB1_via1_dirb (s : State) (data : Byte) :
    (writePortB1 s data).via1.dirb = s.via1.dirb := by
  obtain ⟨call, hframe⟩ := writePortB1_frame s data
  rw [hframe]

@[simp] theorem writePortB1_via1_ifr (s : State) (data : Byte) :
    (writePortB1 s data).via1.ifr = s.via1.ifr := by
  obtain ⟨call, hframe⟩ := writePortB1_frame s data
  rw [hframe]

@[simp] theorem writePortB1_via1_ier (s : State) (data : Byte) :
    (writePortB1 s data).via1.ier = s.via1.ier := by
  obtain ⟨call, hframe⟩ := writePortB1_frame s data
  rw [hframe]

theorem writePortB1_pram (s : State) (data : Byte) :
    (writePortB1 s data).pram = (s.storePortB .via1 data).rtcStep.pram := by
  obtain ⟨call, sr, b, hhook, -⟩ := hookVia1_frame (s.storePortB .via1 data)
  rw [writePortB1, hhook]; rfl

theorem writePortB1_rtc (s : State) (data : Byte) :
    (writePortB1 s data).rtc = { (s.storePortB .via1 data).rtcStep.rtc with
      lastPortB := (writePortB1 s data).via1.b } := by
  obtain ⟨call, sr, b, hhook, -⟩ := hookVia1_frame (s.storePortB .via1 data)
  rw [writePortB1, hhook]

/-- The transfer may write bit 3 of the port; every other bit is as the RTC step left it. -/
theorem writePortB1_bit (s : State) (data : Byte) {k : Nat} (hk : k ≠ 3) :
    (writePortB1 s data).via1.b.getLsbD k =
      (s.storePortB .via1 data).rtcStep.via1.b.getLsbD k := by
  obtain ⟨call, sr, b, hhook, hb⟩ := hookVia1_frame (s.storePortB .via1 data)
  rw [writePortB1, hhook]
  exact hb k hk

/-- Every bit but the data pin and the ADB-interrupt bit ends as the store left it (R111). -/
theorem writePortB1_stored_bit (s : State) (data : Byte) {k : Nat} (hk0 : k ≠ 0) (hk3 : k ≠ 3) :
    (writePortB1 s data).via1.b.getLsbD k = storedBit s.via1 data k := by
  obtain ⟨_, _, _, hstep, hb⟩ := rtcStep_frame (s.storePortB .via1 data)
  rw [writePortB1_bit s data hk3, hstep]
  exact (hb k hk0).trans (storePortB_bit ..)

/-- When the RTC step has nothing to do, the write stores, transfers and remembers alone. -/
theorem writePortB1_of_idle_step {s : State} {data : Byte}
    (h : (s.storePortB .via1 data).rtcStep = s.storePortB .via1 data) :
    (writePortB1 s data).pram = s.pram ∧
      (writePortB1 s data).rtc = { s.rtc with lastPortB := (writePortB1 s data).via1.b } ∧
      (writePortB1 s data).via1.b.getLsbD 0 = storedBit s.via1 data 0 := by
  refine ⟨?_, ?_, ?_⟩
  · rw [writePortB1_pram, h]
    rfl
  · rw [writePortB1_rtc, h]
    rfl
  · rw [writePortB1_bit s data (by decide), h, storePortB_bit]

/-- Settles O28. -/
theorem deselectedSequencerKeepsItsState : Obligations.DeselectedSequencerKeepsItsState := by
  intro data s hsel
  exact ⟨_, exec_wrOrb_via1 data s,
    writePortB1_of_idle_step (rtcStep_of_deselected ((storePortB_bit ..).trans hsel))⟩

/-- Settles O29. -/
theorem noClockEdgeMovesNoBit : Obligations.NoClockEdgeMovesNoBit := by
  intro data s hcount hclock
  have hmove := moveBit_of_no_edge (s := s.storePortB .via1 data) ((storePortB_bit ..).trans hclock)
  exact ⟨_, exec_wrOrb_via1 data s, writePortB1_of_idle_step (rtcStep_of_no_move hcount hmove)⟩

/-- Selected, a rising edge with fewer than seven bits in takes the written bit (R154). -/
theorem writePortB1_rising {s : State} {data : Byte} (hsel : storedBit s.via1 data 2 = false)
    (hdir : s.via1.dirb.getLsbD 0 = true) (hcount : s.rtc.dataOutCount < 7)
    (hlast : s.rtc.lastPortB.getLsbD 1 = false) (hclock : storedBit s.via1 data 1 = true) :
    (writePortB1 s data).pram = s.pram ∧
      (writePortB1 s data).rtc = withSerial s.rtc (shiftIn s.rtc.dataOut (data.getLsbD 0))
        (s.rtc.dataOutCount + 1) (writePortB1 s data).via1.b := by
  have hstep : (s.storePortB .via1 data).rtcStep = (s.storePortB .via1 data).takeBit := by
    rw [rtcStep_of_selected ((storePortB_bit ..).trans hsel),
      moveBit_output_rising (s := s.storePortB .via1 data) hdir hlast
        ((storePortB_bit ..).trans hclock), completeByte_of_ne]
    exact Nat.ne_of_lt (Nat.succ_lt_succ hcount)
  have hbit : (s.storePortB .via1 data).via1.b.getLsbD 0 = data.getLsbD 0 :=
    (storePortB_bit ..).trans (storedBit_of_output hdir data)
  rw [takeBit_eq, hbit] at hstep
  constructor
  · rw [writePortB1_pram, hstep]
    rfl
  · rw [writePortB1_rtc, hstep]
    rfl

/-- A falling edge, or none, takes no bit from the host (R154). -/
theorem writePortB1_not_rising {s : State} {data : Byte} (hdir : s.via1.dirb.getLsbD 0 = true)
    (hcount : s.rtc.dataOutCount < 8)
    (hedge : s.rtc.lastPortB.getLsbD 1 = true ∨ storedBit s.via1 data 1 = false) :
    (writePortB1 s data).pram = s.pram ∧
      (writePortB1 s data).rtc = { s.rtc with lastPortB := (writePortB1 s data).via1.b } := by
  have hmove := moveBit_output_not_rising (s := s.storePortB .via1 data) hdir
    (hedge.imp_right (storePortB_bit ..).trans)
  obtain ⟨hpram, hrtc, -⟩ := writePortB1_of_idle_step (rtcStep_of_no_move hcount hmove)
  exact ⟨hpram, hrtc⟩

/-- Settles O30. -/
theorem risingEdgeTakesAHostBit : Obligations.RisingEdgeTakesAHostBit := by
  intro data s hsel hdir
  refine ⟨fun hcount hlast hclock => ?_, fun hcount hedge => ?_⟩
  · obtain ⟨hpram, hrtc⟩ := writePortB1_rising hsel hdir hcount hlast hclock
    exact ⟨_, _, exec_wrOrb_via1 data s, hpram, shiftIn_toNat _ _, hrtc⟩
  · exact ⟨_, exec_wrOrb_via1 data s, writePortB1_not_rising hdir hcount hedge⟩

/-- The eighth rising edge runs the command as the state `z` does, which agrees with the machine in
all that a command reads (R156, R158). -/
theorem writePortB1_eighth_bit {s z : State} {data : Byte} (hz : SameCommandState z s)
    (hsel : storedBit s.via1 data 2 = false) (hdir : s.via1.dirb.getLsbD 0 = true)
    (hcount : s.rtc.dataOutCount = 7) (hlast : s.rtc.lastPortB.getLsbD 1 = false)
    (hclock : storedBit s.via1 data 1 = true) :
    ∃ u, exec (decodeRtc z.rtc.cmd (shiftIn s.rtc.dataOut (data.getLsbD 0))) z = .next u ∧
      (writePortB1 s data).pram = u.pram ∧
      (writePortB1 s data).rtc = withSerial u.rtc 0x00 0 (writePortB1 s data).via1.b := by
  obtain ⟨u, hu, hpram, hrtc⟩ := rtcStep_eighth_bit (s := s.storePortB .via1 data) (z := z)
    ⟨hz.pram, hz.params, hz.now, hz.rtc⟩ ((storePortB_bit ..).trans hsel)
    (moveBit_output_rising hdir hlast ((storePortB_bit ..).trans hclock)) hcount
  rw [storePortB_bit, storedBit_of_output hdir] at hu
  exact ⟨u, hu, by rw [writePortB1_pram, hpram], by rw [writePortB1_rtc, hrtc]; rfl⟩

/-- Every state is one with itself for a command. -/
theorem SameCommandState.refl (s : State) : SameCommandState s s := ⟨rfl, rfl, rfl, rfl⟩

/-- Settles O31. -/
theorem eighthRisingEdgeDispatches : Obligations.EighthRisingEdgeDispatches := by
  intro data s hsel hdir hcount hlast hclock
  obtain ⟨u, hu, hpram, hrtc⟩ :=
    writePortB1_eighth_bit (.refl s) hsel hdir hcount hlast hclock
  exact ⟨_, u, _, exec_wrOrb_via1 data s, shiftIn_toNat _ _, hu, hpram, hrtc⟩

/-- Settles O32. -/
theorem fallingEdgePresentsAChipBit : Obligations.FallingEdgePresentsAChipBit := by
  intro data s hsel hdir hcount
  have hbit : storedBit s.via1 data 0 = s.via1.b.getLsbD 0 := storedBit_of_input hdir data
  have idle (hmove : (s.storePortB .via1 data).moveBit = s.storePortB .via1 data) :
      ∃ t, exec (.wrOrb .via1 data) s = .next t ∧ t.pram = s.pram ∧
        t.via1.b.getLsbD 0 = s.via1.b.getLsbD 0 ∧
        t.rtc = { s.rtc with lastPortB := t.via1.b } := by
    obtain ⟨hpram, hrtc, hb⟩ := writePortB1_of_idle_step (rtcStep_of_no_move hcount hmove)
    exact ⟨_, exec_wrOrb_via1 data s, hpram, hb.trans hbit, hrtc⟩
  refine ⟨fun hlast hclock hqueued => ?_, fun hlast hclock hempty => ?_, fun hlast hclock => ?_⟩
  · have hpresent := presentBit_of_queued (s := s.storePortB .via1 data) hqueued
    have hstep : (s.storePortB .via1 data).rtcStep = (s.storePortB .via1 data).presentBit := by
      rw [rtcStep_of_selected ((storePortB_bit ..).trans hsel),
        moveBit_input_falling (s := s.storePortB .via1 data) hdir hlast
          ((storePortB_bit ..).trans hclock), hpresent, completeByte_of_ne]
      exact Nat.ne_of_lt hcount
    rw [hpresent] at hstep
    refine ⟨_, s.rtc.dataIn <<< 1, exec_wrOrb_via1 data s, ?_, ?_, ?_, ?_⟩
    · rw [writePortB1_pram, hstep]
      rfl
    · rw [writePortB1_bit s data (by decide), hstep]
      exact withRtcData_bit ..
    · rw [BitVec.toNat_shiftLeft, Nat.shiftLeft_eq, Nat.mul_comm]
    · rw [writePortB1_rtc, hstep]
      rfl
  · exact idle ((moveBit_input_falling (s := s.storePortB .via1 data) hdir hlast
      ((storePortB_bit ..).trans hclock)).trans (presentBit_of_empty hempty))
  · exact idle (moveBit_input_not_falling hdir (.inl hlast))

/-! ## The frame of the RTC step inside the write -/

theorem rtcStep_cases (s : State) : s.rtcStep = s ∨ s.rtcStep = s.moveBit.completeByte :=
  (ite_eq_or_eq ..).symm

/-- A completed byte leaves both banks alone, and the bias. -/
theorem completeByte_frame (s : State) :
    s.completeByte.via1 = s.via1 ∧ s.completeByte.rtc.tickOffset = s.rtc.tickOffset := by
  by_cases h : s.rtc.dataOutCount = 8
  · have hexec := exec_decodeRtc s s.rtc.dataOut
    obtain ⟨r, m, hframe⟩ : ∃ r m, s.dispatch s.rtc.dataOut = { s.setRtc r with pram := m } :=
      ⟨_, _, dispatch_frame s s.rtc.dataOut⟩
    have hbias := (exec_rtc_effect (decodeRtc_isRtc _ _) hexec).bias
    rw [completeByte_of_eq h]
    exact ⟨by rw [hframe]; rfl, hbias⟩
  · rw [completeByte_of_ne h]
    exact ⟨rfl, rfl⟩

/-- No RTC step changes the seconds bias (R39). -/
theorem rtcStep_tickOffset (s : State) : s.rtcStep.rtc.tickOffset = s.rtc.tickOffset := by
  have hmove : s.moveBit.rtc.tickOffset = s.rtc.tickOffset := by
    rcases moveBit_cases s with h | h | ⟨-, hqueued, h⟩
    · rw [h]
    · rw [h, takeBit_eq, setRtc_rtc]
    · rw [h, presentBit_of_queued hqueued]
  rcases rtcStep_cases s with h | h
  · rw [h]
  · rw [h, (completeByte_frame _).2, hmove]

@[simp] theorem writePortB1_tickOffset (s : State) (data : Byte) :
    (writePortB1 s data).rtc.tickOffset = s.rtc.tickOffset := by
  rw [writePortB1_rtc]
  exact rtcStep_tickOffset _

/-- With the data pin an output the RTC step writes no bit of the port (R153, R155). -/
theorem rtcStep_via1_of_output {s : State} (hdir : s.via1.dirb.getLsbD 0 = true) :
    s.rtcStep.via1 = s.via1 := by
  have hmove : s.moveBit.via1 = s.via1 := by
    rcases moveBit_cases s with h | h | ⟨hinput, -, -⟩
    · rw [h]
    · rw [h, takeBit_eq, setRtc_via1]
    · rw [hdir] at hinput
      cases hinput
  rcases rtcStep_cases s with h | h
  · rw [h]
  · rw [h, (completeByte_frame _).1, hmove]

/-- Settles O27. -/
theorem writeOfPortBOfVia1StoresAndCallsOnce :
    Obligations.WriteOfPortBOfVia1StoresAndCallsOnce := by
  intro data s
  obtain ⟨call, hframe⟩ := writePortB1_frame s data
  refine ⟨_, call, exec_wrOrb_via1 data s, fun k => writePortB1_stored_bit s data, fun hdir => ?_,
    ?_, writePortB1_tickOffset s data, hframe⟩
  · rw [writePortB1_bit s data (by decide),
      rtcStep_via1_of_output (s := s.storePortB .via1 data) hdir, storePortB_bit,
      storedBit_of_output hdir]
  · rw [writePortB1_rtc]

/-! ## The transfer inside the write -/

/-- What the transfer finds after the store and the RTC step: the stored state, and the rest as it
was before the write (R194). -/
structure TransferInput (s : State) (data : Byte) (p : State) : Prop where
  state : adbStateField p.via1.b = storedAdbState s.via1 data
  sr : p.via1.sr = s.via1.sr
  acr : p.via1.acr = s.via1.acr
  ifr : p.via1.ifr = s.via1.ifr
  outputs : p.outputs = s.outputs
  reply (call : AdbCall) : p.adbReply call = s.adbReply call

theorem transferInput_rtcStep (s : State) (data : Byte) :
    TransferInput s data (s.storePortB .via1 data).rtcStep := by
  have hfield : ∀ b : Byte, adbStateField b =
      BitVec.ofBool (b.getLsbD 5) ++ BitVec.ofBool (b.getLsbD 4) := by decide
  obtain ⟨r, m, b, hstep, hb⟩ := rtcStep_frame (s.storePortB .via1 data)
  rw [hstep]
  refine ⟨?_, rfl, rfl, rfl, rfl, fun call => rfl⟩
  rw [hfield, hb 5 (by decide), hb 4 (by decide), storePortB_bit, storePortB_bit, storedAdbState]

/-- Settles O33. -/
theorem shiftOutSendsTheByte : Obligations.ShiftOutSendsTheByte := by
  intro data s hacr
  have hin := transferInput_rtcStep s data
  have hwrite : writePortB1 s data =
      ((s.storePortB .via1 data).rtcStep.adbSend).rememberPortB := by
    rw [writePortB1, State.hookVia1, State.adbTransfer, shiftOut_bit, hin.acr, if_pos hacr]
  refine ⟨_, exec_wrOrb_via1 data s, ?_, ?_, ?_, fun k hk => writePortB1_bit s data hk, ?_⟩
  · simp [hwrite, State.adbSend, hin.state, hin.sr, hin.outputs]
  · simp [hwrite, State.adbSend, hin.sr]
  · simp [hwrite, State.adbSend, hin.ifr]
  · simp only [hwrite, State.adbSend, hin.state, hin.sr, hin.reply, rememberPortB_via1,
      setAdbInt_via1, withAdbInt_bit]
    simp

/-- Settles O34. -/
theorem shiftInReceivesAByte : Obligations.ShiftInReceivesAByte := by
  intro data s hacr
  have hin := transferInput_rtcStep s data
  have hwrite : writePortB1 s data =
      ((s.storePortB .via1 data).rtcStep.adbReceive).rememberPortB := by
    rw [writePortB1, State.hookVia1, State.adbTransfer, shiftOut_bit, hin.acr, hacr,
      if_neg Bool.false_ne_true]
  refine ⟨_, exec_wrOrb_via1 data s, ?_, ?_, ?_, fun k hk => writePortB1_bit s data hk, ?_⟩
  · simp [hwrite, State.adbReceive, hin.state, hin.sr, hin.outputs]
  · simp [hwrite, State.adbReceive, hin.state, hin.sr, hin.reply]
  · simp [hwrite, State.adbReceive, hin.ifr]
  · simp only [hwrite, State.adbReceive, hin.state, hin.sr, hin.reply, rememberPortB_via1,
      setAdbInt_via1, setSr1_via1, withAdbInt_bit]
    simp

end Sys2Proof.Proofs
end

section
/-! The step of an offered write, and the sixteen writes that send a byte (R71, R85, R101). -/

namespace Sys2Proof.Proofs
open Sys2Proof.Machine

/-! ## The step -/

/-- A step runs the first stimulus on offer (R71). -/
theorem step_of_pending {s : State} {st : Stimulus} {rest : List Stimulus} {i : Instr}
    (hpending : s.pending = st :: rest) (hdecode : decodeStimulus st = .ok i) :
    step s = exec i { s with pending := rest } := by
  simp only [step, hpending, hdecode]

/-- Settles O9. -/
theorem stepRunsTheOfferedStimulus : Obligations.StepRunsTheOfferedStimulus := by
  intro s
  refine ⟨fun hpending => ?_, fun st rest i => step_of_pending, fun st i => step_of_pending rfl⟩
  simp only [step, hpending]

/-- A write of ORB of VIA1 on offer (R66, R82). -/
theorem step_orb1Write {s : State} {data : Byte} {rest : List Stimulus}
    (h : s.pending = orb1Write data :: rest) :
    step s = .next (writePortB1 { s with pending := rest } data) :=
  step_of_pending h (decodeBus_register_write 0 .via1 data)

/-! ## The eighth bit on offer -/

/-- The state `offerRtc` makes, but for the write on offer: selected, seven bits in. -/
def sevenBitsIn (s : State) (cmd byte : Byte) : State :=
  { s with
    via1 := { s.via1 with b := s.via1.b &&& ~~~0x07#8, dirb := s.via1.dirb ||| 0x07 }
    rtc := { s.rtc with
      cmd := cmd, dataOut := byte >>> 1, dataOutCount := 7
      lastPortB := s.via1.b &&& ~~~0x07#8 } }

/-- The byte that raises the clock with the last bit. -/
def lastBitWrite (s : State) (byte : Byte) : Byte :=
  s.via1.b &&& ~~~0x07#8 ||| Config.rtcClkMask ||| byte &&& Config.rtcDataMask

theorem offerRtc_eq (s : State) (cmd byte : Byte) :
    s.offerRtc cmd byte = (sevenBitsIn s cmd byte).offer (orb1Write (lastBitWrite s byte)) := rfl

/-- The RTC pins in the last write: selected, the clock high, the last bit of the byte. -/
theorem lastBitWrite_bits (s : State) (byte : Byte) :
    (lastBitWrite s byte).getLsbD 2 = false ∧ (lastBitWrite s byte).getLsbD 1 = true ∧
      (lastBitWrite s byte).getLsbD 0 = byte.getLsbD 0 := by
  simp [lastBitWrite, Config.rtcClkMask, Config.rtcDataMask]

/-- Settles O10: the write on offer is the eighth rising edge. -/
theorem eighthBitRunsTheCommand : Obligations.EighthBitRunsTheCommand := by
  intro s cmd byte
  have hpins : ∀ d : Byte, (d ||| 0x07).getLsbD 0 = true ∧ (d ||| 0x07).getLsbD 1 = true ∧
      (d ||| 0x07).getLsbD 2 = true := by decide
  have hlow : ∀ b : Byte, (b &&& ~~~0x07#8).getLsbD 1 = false := by decide
  have hbyte : ∀ b : Byte, shiftIn (b >>> 1) (b.getLsbD 0) = b := by decide
  obtain ⟨hsel, hclock, hlast⟩ := lastBitWrite_bits s byte
  obtain ⟨hdir0, hdir1, hdir2⟩ := hpins s.via1.dirb
  have hsame : SameCommandState { s with rtc := { s.rtc with cmd := cmd } }
      (sevenBitsIn s cmd byte) := ⟨rfl, rfl, rfl, rfl⟩
  have hstep : step (s.offerRtc cmd byte) =
      .next (writePortB1 (sevenBitsIn s cmd byte) (lastBitWrite s byte)) := by
    rw [offerRtc_eq]
    exact step_orb1Write rfl
  obtain ⟨u, hu, hpram, hrtc⟩ := writePortB1_eighth_bit (data := lastBitWrite s byte) hsame
    ((storedBit_of_output hdir2 _).trans hsel) hdir0 rfl (hlow s.via1.b)
    ((storedBit_of_output hdir1 _).trans hclock)
  rw [hlast] at hu
  change exec (decodeRtc cmd (shiftIn (byte >>> 1) (byte.getLsbD 0))) _ = _ at hu
  rw [hbyte] at hu
  exact ⟨_, u, hstep, hu, hpram, hrtc, writePortB1_pending ..⟩

/-! ## Sending a byte -/

theorem run_succ {s t : State} (h : step s = .next t) (n : Nat) :
    Host.Core.run core (n + 1) s = Host.Core.run core n t := by
  simp only [Host.Core.run]
  rw [show core.step s = .next t from h]

/-- The machine `x` in the middle of a transfer that began in `s`: `k` bits are in and assembled in
`d`, `writes` writes of the port are done, and a command would do what it would have done in `s`. -/
structure LineState (s x : State) (d : Byte) (k writes : Nat) : Prop where
  command : SameCommandState s x
  dataOut : x.rtc.dataOut = d
  count : x.rtc.dataOutCount = k
  dirb : x.via1.dirb = s.via1.dirb
  via2 : x.via2 = s.via2
  calls : x.adbCalls = s.adbCalls + writes

/-- A write that moves the assembly alone is one more write of the transfer. -/
theorem LineState.write {s x : State} {d d' data : Byte} {k k' writes : Nat}
    (h : LineState s x d k writes) (hpram : (writePortB1 x data).pram = x.pram)
    (hrtc : (writePortB1 x data).rtc = withSerial x.rtc d' k' (writePortB1 x data).via1.b) :
    LineState s (writePortB1 x data) d' k' (writes + 1) := by
  obtain ⟨⟨hp, hparams, hnow, hr⟩, -, -, hdirb, hvia2, hcalls⟩ := h
  refine ⟨⟨hpram.trans hp, ?_, ?_, ?_⟩, ?_, ?_, ?_, ?_, ?_⟩
  · rw [writePortB1_params, hparams]
  · rw [writePortB1_now, hnow]
  · rw [hrtc, hr]; rfl
  · rw [hrtc]; rfl
  · rw [hrtc]; rfl
  · rw [writePortB1_via1_dirb, hdirb]
  · rw [writePortB1_via2, hvia2]
  · rw [writePortB1_adbCalls, hcalls, Nat.add_assoc]

/-- Taking a stimulus from what is on offer is no part of the transfer. -/
theorem LineState.withPending {s x : State} {d : Byte} {k writes : Nat}
    (h : LineState s x d k writes) (rest : List Stimulus) :
    LineState s { x with pending := rest } d k writes :=
  ⟨⟨h.command.pram, h.command.params, h.command.now, h.command.rtc⟩, h.dataOut, h.count, h.dirb,
    h.via2, h.calls⟩

/-- The three RTC pins of port B of VIA1 are outputs (R33). -/
def rtcPinsOut (s : State) : Prop :=
  s.via1.dirb.getLsbD 0 = true ∧ s.via1.dirb.getLsbD 1 = true ∧ s.via1.dirb.getLsbD 2 = true

/-- The two bytes written for a bit: the chip selected in both, the clock low and then high, the
second with the bit on the data pin (R101). -/
theorem sendBit_bytes (u : Byte) (v : Bool) (hu : u.toNat % 8 = 0) :
    ∃ low high, sendBit u v = [orb1Write low, orb1Write high] ∧
      low.getLsbD 1 = false ∧ low.getLsbD 2 = false ∧
      high.getLsbD 1 = true ∧ high.getLsbD 2 = false ∧ high.getLsbD 0 = v := by
  have hpins : ∀ w : Byte, w.toNat % 8 = 0 →
      w.getLsbD 0 = false ∧ w.getLsbD 1 = false ∧ w.getLsbD 2 = false := by decide
  obtain ⟨h0, h1, h2⟩ : u[0] = false ∧ u[1] = false ∧ u[2] = false := hpins u hu
  refine ⟨_, _, rfl, ?_, ?_, ?_, ?_, ?_⟩ <;>
    simp [h0, h1, h2, Config.rtcClkMask]

/-- The first write of a bit lowers the clock and moves nothing. -/
theorem LineState.low {s x : State} {d low : Byte} {k writes : Nat} {rest : List Stimulus}
    (h : LineState s x d k writes) (hpins : rtcPinsOut s) (hk : k < 8)
    (hclock : low.getLsbD 1 = false) (hpending : x.pending = orb1Write low :: rest) :
    ∃ y, step x = .next y ∧ y.pending = rest ∧ LineState s y d k (writes + 1) ∧
      y.rtc.lastPortB.getLsbD 1 = false := by
  obtain ⟨hdir0, hdir1, -⟩ := hpins
  have hx := h.withPending rest
  rw [← hx.dirb] at hdir0 hdir1
  have hstored := (storedBit_of_output hdir1 low).trans hclock
  obtain ⟨hpram, hrtc⟩ := writePortB1_not_rising hdir0 (hx.count.trans_lt hk) (.inr hstored)
  refine ⟨_, step_orb1Write hpending, writePortB1_pending .., hx.write hpram ?_, ?_⟩
  · rw [hrtc, ← hx.dataOut, ← hx.count]; rfl
  · rw [hrtc, writePortB1_stored_bit _ _ (by decide) (by decide), hstored]

/-- The second write of a bit raises the clock, and the chip takes the bit (R154). -/
theorem LineState.high {s x : State} {d high : Byte} {k writes : Nat} {rest : List Stimulus}
    (h : LineState s x d k writes) (hpins : rtcPinsOut s) (hk : k < 7)
    (hlast : x.rtc.lastPortB.getLsbD 1 = false)
    (hclock : high.getLsbD 1 = true) (hsel : high.getLsbD 2 = false)
    (hpending : x.pending = orb1Write high :: rest) :
    ∃ y, step x = .next y ∧ y.pending = rest ∧
      LineState s y (shiftIn d (high.getLsbD 0)) (k + 1) (writes + 1) := by
  obtain ⟨hdir0, hdir1, hdir2⟩ := hpins
  have hx := h.withPending rest
  rw [← hx.dirb] at hdir0 hdir1 hdir2
  obtain ⟨hpram, hrtc⟩ := writePortB1_rising ((storedBit_of_output hdir2 high).trans hsel) hdir0
    (hx.count.trans_lt hk) hlast ((storedBit_of_output hdir1 high).trans hclock)
  rw [hx.dataOut, hx.count] at hrtc
  exact ⟨_, step_orb1Write hpending, writePortB1_pending .., hx.write hpram hrtc⟩

/-- The two writes of a bit put it into the assembly, while fewer than seven are in. -/
theorem LineState.sendBit {s x : State} {u d : Byte} {v : Bool} {k writes : Nat}
    {rest : List Stimulus} (h : LineState s x d k writes) (hpins : rtcPinsOut s)
    (hu : u.toNat % 8 = 0) (hk : k < 7) (hpending : x.pending = sendBit u v ++ rest) :
    ∃ y, (∀ n, Host.Core.run core (n + 2) x = Host.Core.run core n y) ∧ y.pending = rest ∧
      LineState s y (shiftIn d v) (k + 1) (writes + 2) := by
  obtain ⟨low, high, hbytes, hl1, -, hh1, hh2, hh0⟩ := sendBit_bytes u v hu
  rw [hbytes] at hpending
  obtain ⟨y, hxy, hy, hly, hlast⟩ := h.low hpins (by omega) hl1 hpending
  obtain ⟨z, hyz, hz, hlz⟩ := hly.high hpins hk hlast hh1 hh2 hy
  rw [hh0] at hlz
  exact ⟨z, fun n => (run_succ hxy (n + 1)).trans (run_succ hyz n), hz, hlz⟩

/-- The writes of several bits put them all into the assembly, if that leaves it short of a byte. -/
theorem LineState.sendBits {s x : State} {u d : Byte} {vs : List Bool} {k writes : Nat}
    {rest : List Stimulus} (h : LineState s x d k writes) (hpins : rtcPinsOut s)
    (hu : u.toNat % 8 = 0) (hk : k + vs.length < 8)
    (hpending : x.pending = vs.flatMap (Machine.sendBit u) ++ rest) :
    ∃ y, (∀ n, Host.Core.run core (n + 2 * vs.length) x = Host.Core.run core n y) ∧
      y.pending = rest ∧
      LineState s y (vs.foldl shiftIn d) (k + vs.length) (writes + 2 * vs.length) := by
  induction vs generalizing x d k writes with
  | nil => exact ⟨x, fun n => rfl, hpending, h⟩
  | cons v vs ih =>
    rw [List.flatMap_cons, List.append_assoc] at hpending
    rw [List.length_cons] at hk ⊢
    obtain ⟨y, hxy, hy, hly⟩ := h.sendBit hpins hu (by omega) hpending
    obtain ⟨z, hyz, hz, hlz⟩ := ih hly (by omega) hy
    refine ⟨z, fun n => (hxy (n + 2 * vs.length)).trans (hyz n), hz, ?_⟩
    rw [show k + (vs.length + 1) = k + 1 + vs.length by omega,
      show writes + 2 * (vs.length + 1) = writes + 2 + 2 * vs.length by omega]
    exact hlz

/-- Eight bits shifted in, most significant first, are the byte, whatever stood there (R154). -/
theorem shiftIn_byte (d byte : Byte) :
    shiftIn ([byte.getLsbD 7, byte.getLsbD 6, byte.getLsbD 5, byte.getLsbD 4, byte.getLsbD 3,
      byte.getLsbD 2, byte.getLsbD 1].foldl shiftIn d) (byte.getLsbD 0) = byte := by
  simp only [List.foldl, shiftIn]
  ext k hk
  interval_cases k <;> simp

/-- Settles O35: seven bits by `LineState.sendBits`, and the eighth dispatches. -/
theorem serialSendDispatchesTheByte : Obligations.SerialSendDispatchesTheByte := by
  intro s u byte rest hu hdirb hcount hpending
  have hpins : rtcPinsOut s := by
    have hbits : ∀ w : Byte, w.toNat % 8 = 7 →
        w.getLsbD 0 = true ∧ w.getLsbD 1 = true ∧ w.getLsbD 2 = true := by decide
    exact hbits _ hdirb
  have hstart : LineState s s s.rtc.dataOut 0 0 := ⟨.refl s, rfl, hcount, rfl, rfl, rfl⟩
  obtain ⟨low, high, hbytes, hl1, -, hh1, hh2, hh0⟩ := sendBit_bytes u (byte.getLsbD 0) hu
  obtain ⟨x, hsx, hx, hlx⟩ := hstart.sendBits (rest := [orb1Write low, orb1Write high] ++ rest)
    (vs := [byte.getLsbD 7, byte.getLsbD 6, byte.getLsbD 5, byte.getLsbD 4, byte.getLsbD 3,
      byte.getLsbD 2, byte.getLsbD 1]) hpins hu (by simp) (by rw [hpending, ← hbytes]; rfl)
  obtain ⟨y, hxy, hy, hly, hlast⟩ := hlx.low hpins (by simp) hl1 hx
  have hz := hly.withPending rest
  obtain ⟨hdir0, hdir1, hdir2⟩ := hpins
  rw [← hz.dirb] at hdir0 hdir1 hdir2
  obtain ⟨v, hv, hpram, hrtc⟩ := writePortB1_eighth_bit hz.command
    ((storedBit_of_output hdir2 high).trans hh2) hdir0 hz.count hlast
    ((storedBit_of_output hdir1 high).trans hh1)
  rw [hz.dataOut, hh0, shiftIn_byte] at hv
  refine ⟨_, v, ?_, hv, hpram, writePortB1_pending .., ?_, hrtc, ?_⟩
  · exact (hsx 2).trans ((run_succ hxy 1).trans (run_succ (step_orb1Write hy) 0))
  · rw [writePortB1_via2, hz.via2]
  · rw [writePortB1_adbCalls, hz.calls]; rfl

end Sys2Proof.Proofs
end

section
/-! What every instruction can do to the state, in one inversion lemma, and what follows: which
fields an instruction leaves alone (R21, R30, R142, R235), and that a write is idempotent (R69). -/

namespace Sys2Proof.Proofs
open Sys2Proof.Machine

/-- The bank whose registers alone a bus write, a counter tick or a fan-in step is about. -/
def registerBank : Instr → Option BankId
  | .tickT1 bank | .tickT2 bank | .extirq bank _ _ => some bank
  | i => writeBank i

/-- What each instruction can do to the state. -/
inductive Effect (s : State) : Instr → State → Prop
  /-- A bus read emits one byte (R68). -/
  | read {i : Instr} {bank : BankId} (value : Byte) (hread : readBank i = some bank) :
      Effect s i (s.answerRead bank value)
  /-- Registers of one bank take new values, port B not among them (R21). -/
  | registers {i : Instr} {bank : BankId} {v : Via} (hbank : registerBank i = some bank)
      (hport : v.b = (s.via bank).b) (hflags : mayChangeFlags i = false → v.ifr = (s.via bank).ifr)
      (henables : (∀ b d, i ≠ .wrIer b d) → v.ier = (s.via bank).ier) :
      Effect s i (s.setVia bank v)
  /-- A write of port B of VIA1 (R111). -/
  | portB1 (data : Byte) : Effect s (.wrOrb .via1 data) (writePortB1 s data)
  /-- A write of port B of VIA2 stores, and may emit a request (R111, R224). -/
  | portB2 (data b : Byte) (outputs : List Output) :
      Effect s (.wrOrb .via2 data) { s with via2 := { s.via2 with b := b }, outputs := outputs }
  /-- A row of format RTC (R158). -/
  | command {i : Instr} {r : Rtc} {m : Memory} (hrtc : isRtc i = true)
      (heffect : CommandEffect s { s with rtc := r, pram := m }) :
      Effect s i { s with rtc := r, pram := m }
  | reset : Effect s .reset s.resetBlock
  | advance (dt : Nat) : Effect s (.advance dt) { s with now := s.now + dt }
  /-- A firing before its deadline (R207; log entry 6). -/
  | early {i : Instr} (hfire : i ∈ [Instr.fireVbl, .fireSec, .fireAdbpoll]) : Effect s i s
  | vbl : Effect s .fireVbl s.serveVbl
  | sec : Effect s .fireSec s.serveSec
  /-- A poll makes at most one call and sets no flag (R196, R210). -/
  | adbpoll {b : Byte} (sr : Byte) (script : List AdbAnswer) (calls : Nat) (outputs : List Output)
      (hport : ∀ k, k ≠ 3 → b.getLsbD k = s.via1.b.getLsbD k) :
      Effect s .fireAdbpoll { s with
        via1 := { s.via1 with b := b, sr := sr }
        nextAdb := nextDeadline s.now Config.periodAdbpoll
        adbScript := script, adbCalls := calls, outputs := outputs }

/-- A tick of timer 1 writes no port and no enable (R214). -/
theorem tickT1_frame (v : Via) : v.tickT1.b = v.b ∧ v.tickT1.ier = v.ier := by
  unfold Via.tickT1
  split_ifs <;> exact ⟨rfl, rfl⟩

/-- A tick of timer 2 writes no port and no enable (R215). -/
theorem tickT2_frame (v : Via) : v.tickT2.b = v.b ∧ v.tickT2.ier = v.ier := by
  unfold Via.tickT2
  split_ifs <;> exact ⟨rfl, rfl⟩

theorem exec_command_effect {i : Instr} (hrtc : isRtc i = true) (s : State) :
    ∃ t, exec i s = .next t ∧ Effect s i t := by
  obtain ⟨t, ht, hframe⟩ := exec_rtc_completes hrtc s
  obtain ⟨r, m, rfl⟩ : ∃ r m, t = { s with rtc := r, pram := m } := ⟨_, _, hframe⟩
  exact ⟨_, ht, .command hrtc (exec_rtc_effect hrtc ht)⟩

theorem storePortB2_effect (s : State) (data : Byte) :
    Effect s (.wrOrb .via2 data) (s.storePortB .via2 data).powerCheck := by
  unfold State.powerCheck
  split <;> exact .portB2 data _ _

theorem serveAdbpoll_effect (s : State) : Effect s .fireAdbpoll s.serveAdbpoll := by
  unfold State.serveAdbpoll
  rcases adbPoll_frame s with h | ⟨call, sr, b, h, hb⟩
  · rw [h]
    exact .adbpoll _ _ _ _ fun _ _ => rfl
  · rw [h]
    exact .adbpoll _ _ _ _ hb

/-- Every instruction completes, and does what its kind does. -/
theorem exec_effect (i : Instr) (s : State) : ∃ t, exec i s = .next t ∧ Effect s i t := by
  cases i with
  | rdOrb b | rdOrah b | rdDdrb b | rdDdra b | rdT1cl b | rdT1ch b | rdT1ll b | rdT1lh b | rdT2cl b
  | rdT2ch b | rdSr b | rdAcr b | rdPcr b | rdIfr b | rdIer b | rdOra b =>
    exact ⟨_, rfl, .read _ rfl⟩
  | wrOrb b d =>
    cases b
    · exact ⟨_, rfl, .portB1 d⟩
    · exact ⟨_, rfl, storePortB2_effect s d⟩
  | wrOrah b d =>
    have heffect : Effect s (.wrOrah b d) (s.setVia b (s.via b)) :=
      .registers rfl rfl (fun _ => rfl) fun _ => rfl
    rw [setVia_self] at heffect
    exact ⟨_, rfl, heffect⟩
  | wrDdrb b d | wrDdra b d | wrT1cl b d | wrT1ch b d | wrT1ll b d | wrT1lh b d | wrT2cl b d
  | wrT2ch b d | wrSr b d | wrAcr b d | wrPcr b d | wrOra b d =>
    exact ⟨_, rfl, .registers rfl rfl (fun _ => rfl) fun _ => rfl⟩
  | wrIfr b d | extirq b line level =>
    exact ⟨_, rfl, .registers rfl rfl nofun fun _ => rfl⟩
  | wrIer b d =>
    exact ⟨_, rfl, .registers rfl rfl (fun _ => rfl) fun h => absurd rfl (h b d)⟩
  | reset => exact ⟨_, rfl, .reset⟩
  | advance dt => exact ⟨_, rfl, .advance dt⟩
  | fireVbl =>
    simp only [exec, execFireVbl]
    split
    · exact ⟨_, rfl, .vbl⟩
    · exact ⟨_, rfl, .early (by simp)⟩
  | fireSec =>
    simp only [exec, execFireSec]
    split
    · exact ⟨_, rfl, .sec⟩
    · exact ⟨_, rfl, .early (by simp)⟩
  | fireAdbpoll =>
    simp only [exec, execFireAdbpoll]
    split
    · exact ⟨_, rfl, serveAdbpoll_effect s⟩
    · exact ⟨_, rfl, .early (by simp)⟩
  | tickT1 b =>
    exact ⟨_, rfl, .registers rfl (tickT1_frame _).1 nofun fun _ => (tickT1_frame _).2⟩
  | tickT2 b =>
    exact ⟨_, rfl, .registers rfl (tickT2_frame _).1 nofun fun _ => (tickT2_frame _).2⟩
  | _ => exact exec_command_effect rfl s

/-- What a state after an instruction can be. -/
theorem effect_of_exec {i : Instr} {s t : State} (h : exec i s = .next t) : Effect s i t := by
  obtain ⟨t', h', heffect⟩ := exec_effect i s
  obtain rfl : t' = t := by simpa [h'] using h
  exact heffect

/-! ## Frames -/

/-- Settles O11. -/
theorem everyInstructionCompletes : Obligations.EveryInstructionCompletes := by
  intro i s
  obtain ⟨t, ht, heffect⟩ := exec_effect i s
  refine ⟨t, ht, ?_⟩
  cases heffect with
  | read value hread => simp
  | registers hbank hport hflags henables => simp
  | portB1 data => simp
  | portB2 data b outputs => simp
  | command hrtc heffect => simpa using heffect.bias
  | reset => simp [State.resetBlock, Rtc.atReset]
  | advance dt => simp
  | early hfire => simp
  | vbl => simp [State.serveVbl]
  | sec => simp [State.serveSec]
  | adbpoll sr script calls outputs hport => simp

/-- Settles O24. -/
theorem flagsAndEnablesChangeOnlyWhereNamed : Obligations.FlagsAndEnablesChangeOnlyWhereNamed := by
  intro i s t bank h
  have keep : (mayChangeFlags i = false → (t.via bank).ifr = (s.via bank).ifr) ∧
      ((∀ b d, i ≠ .wrIer b d) → i ≠ .reset → (t.via bank).ier = (s.via bank).ier) := by
    cases effect_of_exec h with
    | read value hread => cases bank <;> simp
    | @registers _ target v hbank hport hflags henables =>
      by_cases htarget : bank = target
      · rw [htarget, setVia_via_same]
        exact ⟨hflags, fun hwrite _ => henables hwrite⟩
      · rw [setVia_via_other _ _ _ _ htarget]
        exact ⟨fun _ => rfl, fun _ _ => rfl⟩
    | portB1 data => cases bank <;> simp
    | portB2 data b outputs => cases bank <;> simp
    | command hrtc heffect => cases bank <;> simp
    | reset => exact ⟨nofun, fun _ h => absurd rfl h⟩
    | advance dt => cases bank <;> simp
    | early hfire => simp
    | vbl => exact ⟨nofun, fun _ _ => by cases bank <;> rfl⟩
    | sec => exact ⟨nofun, fun _ _ => by cases bank <;> rfl⟩
    | adbpoll sr script calls outputs hport => cases bank <;> simp
  refine ⟨keep.1, keep.2, fun hflags hwrite => ?_⟩
  have hreset : i ≠ .reset := by rintro rfl; cases hflags
  rw [State.irq, State.irq, Via.summary, Via.summary, keep.1 hflags, keep.2 hwrite hreset]

theorem registerBank_of_writeBank {i : Instr} {bank : BankId} (h : writeBank i = some bank) :
    registerBank i = some bank := by
  unfold registerBank
  split
  · cases h
  · cases h
  · cases h
  · exact h

/-- A bus read is about no register that changes. -/
theorem registerBank_of_readBank {i : Instr} {bank : BankId} (h : readBank i = some bank) :
    registerBank i = none := by
  cases i with
  | rdOrb b | rdOrah b | rdDdrb b | rdDdra b | rdT1cl b | rdT1ch b | rdT1ll b | rdT1lh b | rdT2cl b
  | rdT2ch b | rdSr b | rdAcr b | rdPcr b | rdIfr b | rdIer b | rdOra b => rfl
  | _ => cases h

/-- An instruction that is about the registers of a bank changes those of no other (R21, R142). -/
theorem exec_via_other {i : Instr} {bank other : BankId} {s t : State}
    (hgiven : readBank i = some bank ∨ registerBank i = some bank) (hother : other ≠ bank)
    (h : exec i s = .next t) : t.via other = s.via other := by
  cases effect_of_exec h with
  | read value hread => cases other <;> rfl
  | registers hbank hport hflags henables =>
    rcases hgiven with hread | hregister
    · cases hbank.symm.trans (registerBank_of_readBank hread)
    · cases hbank.symm.trans hregister
      exact setVia_via_other _ _ _ _ hother
  | portB1 data =>
    obtain rfl : bank = .via1 := by simpa [readBank, registerBank, writeBank, eq_comm] using hgiven
    cases other
    · exact absurd rfl hother
    · exact writePortB1_via2 s data
  | portB2 data b outputs =>
    obtain rfl : bank = .via2 := by simpa [readBank, registerBank, writeBank, eq_comm] using hgiven
    cases other
    · rfl
    · exact absurd rfl hother
  | command hrtc heffect => cases other <;> rfl
  | early hfire => rfl
  | reset | advance dt | vbl | sec | adbpoll sr script calls outputs hport =>
    rcases hgiven with hgiven | hgiven <;> cases hgiven

/-- Settles O26. -/
theorem banksDoNotAlias : Obligations.BanksDoNotAlias := by
  intro i bank other s t hgiven hother h
  refine exec_via_other ?_ hother h
  rcases hgiven with hread | hwrite | rfl | rfl | ⟨line, level, rfl⟩
  · exact .inl hread
  · exact .inr (registerBank_of_writeBank hwrite)
  · exact .inr rfl
  · exact .inr rfl
  · exact .inr rfl

/-- Settles O36. -/
theorem sequencerAndAdbMoveOnlyWhereNamed : Obligations.SequencerAndAdbMoveOnlyWhereNamed := by
  intro i s t h hport
  cases effect_of_exec h with
  | read value hread => simp
  | registers hbank hport hflags henables => simp
  | portB1 data => exact absurd rfl (hport data)
  | portB2 data b outputs => simp
  | command hrtc heffect => simp [hrtc]
  | reset => simp [State.resetBlock]
  | advance dt => simp
  | early hfire => simp
  | vbl => simp [State.serveVbl]
  | sec => simp [State.serveSec]
  | adbpoll sr script calls outputs hport => simp

/-! ## Writing twice -/

@[simp] theorem withLowByte_idem (c : Count) (v : Byte) :
    withLowByte (withLowByte c v) v = withLowByte c v := by
  simp [withLowByte]

@[simp] theorem withHighByte_idem (c : Count) (v : Byte) :
    withHighByte (withHighByte c v) v = withHighByte c v := by
  simp [withHighByte]

@[simp] theorem acknowledge_idem (ifr : BitVec 7) (data : Byte) :
    acknowledge (acknowledge ifr data) data = acknowledge ifr data := by
  refine BitVec.eq_of_getLsbD_eq fun k hk => ?_
  rw [acknowledge_bit _ _ k hk, acknowledge_bit _ _ k hk, Bool.and_assoc, Bool.and_self]

@[simp] theorem setEnables_idem (ier : BitVec 7) (data : Byte) :
    setEnables (setEnables ier data) data = setEnables ier data := by
  refine BitVec.eq_of_getLsbD_eq fun k hk => ?_
  rw [setEnables_bit _ _ k hk, setEnables_bit _ _ k hk]
  split <;> rfl

/-- Storing the byte of a write of port B of VIA2 once more changes nothing (R69). -/
theorem storePortB2_idem (s : State) (data : Byte) :
    (s.storePortB .via2 data).powerCheck.storePortB .via2 data =
      (s.storePortB .via2 data).powerCheck := by
  unfold State.powerCheck
  split <;>
    simp [State.storePortB, State.setVia, State.emit, maskedStore_idem]

/-- A request for a shutdown is an output and nothing else (R225). -/
theorem powerCheck_frame (s : State) :
    s.powerCheck = { s with outputs := s.powerCheck.outputs } := by
  unfold State.powerCheck
  split <;> rfl

/-- A register write other than one of port B is idempotent (R69). -/
theorem exec_register_write_twice {i : Instr} {bank : BankId} {s t : State}
    (hwrite : writeBank i = some bank) (hport : ∀ b d, i ≠ .wrOrb b d) (h : exec i s = .next t) :
    exec i t = .next t := by
  cases i with
  | wrOrb b d => exact absurd rfl (hport b d)
  | wrOrah b d => rfl
  | wrDdrb b d | wrDdra b d | wrT2cl b d | wrT2ch b d | wrSr b d | wrAcr b d | wrPcr b d =>
    cases h
    simp [exec, execWrDdrb, execWrDdra, execWrT2cl, execWrT2ch, execWrSr, execWrAcr, execWrPcr]
  | wrT1cl b d | wrT1ch b d | wrT1ll b d | wrT1lh b d =>
    cases h
    simp [exec, execWrT1cl, execWrT1ch, execWrT1ll, execWrT1lh]
  | wrIfr b d | wrIer b d =>
    cases h
    simp [exec, execWrIfr, execWrIer]
  | wrOra b d =>
    cases h
    simp [exec, execWrOra, maskedStore_idem]
  | _ => cases hwrite

/-- Settles O25. -/
theorem otherBusWritesAreIdempotent : Obligations.OtherBusWritesAreIdempotent := by
  intro i bank s t hwrite hport h
  by_cases hportB2 : ∃ d, i = .wrOrb .via2 d
  · obtain ⟨d, rfl⟩ := hportB2
    obtain rfl : (s.storePortB .via2 d).powerCheck = t := by cases h; rfl
    refine ⟨_, rfl, ?_, fun h => absurd rfl (h d)⟩
    rw [storePortB2_idem]
    exact powerCheck_frame _
  · have hother : ∀ b d, i ≠ .wrOrb b d := by
      rintro (_ | _) d rfl
      · exact hport d rfl
      · exact hportB2 ⟨d, rfl⟩
    exact ⟨t, exec_register_write_twice hwrite hother h, rfl, fun _ => rfl⟩

end Sys2Proof.Proofs
end

section
/-! The invariant of the block: the grid of the deadlines, the ranges of the sequencer under the RTC
step, and the invariant at reset, under a step and after a restore (R37, R157, R206, R254). -/

namespace Sys2Proof.Proofs
open Sys2Proof.Machine

/-! ## The grid -/

theorem dvd_nextDeadline (now period : Nat) : period ∣ nextDeadline now period :=
  Nat.dvd_mul_left ..

theorem lt_nextDeadline (now : Nat) {period : Nat} (h : 0 < period) :
    now < nextDeadline now period :=
  Nat.lt_mul_of_div_lt (Nat.lt_succ_self _) h

/-- No multiple of the period lies between `now` and the next deadline (R206). -/
theorem nextDeadline_le {now period m : Nat} (hdvd : period ∣ m) (hlt : now < m) :
    nextDeadline now period ≤ m := by
  obtain ⟨c, rfl⟩ := hdvd
  rw [nextDeadline, Nat.mul_comm period c]
  exact Nat.mul_le_mul_right _ (Nat.div_lt_of_lt_mul hlt)

theorem nextDeadline_mono {now now' : Nat} (h : now ≤ now') (period : Nat) :
    nextDeadline now period ≤ nextDeadline now' period :=
  Nat.mul_le_mul_right _ (Nat.succ_le_succ (Nat.div_le_div_right h))

/-- Settles O48. -/
theorem nextDeadlineIsTheNextGridPoint : Obligations.NextDeadlineIsTheNextGridPoint := by
  intro now period hpos
  refine ⟨dvd_nextDeadline .., lt_nextDeadline now hpos, fun m => nextDeadline_le, fun hoff => ?_⟩
  have hceil : (now + period - 1) / period = now / period + 1 := by
    have hmod := Nat.mod_lt now hpos
    have hdiv := Nat.div_add_mod now period
    rw [Nat.mul_comm] at hdiv
    refine Nat.div_eq_of_lt_le ?_ ?_ <;> simp only [Nat.add_mul] <;> omega
  rw [nextDeadline, hceil]

/-- A deadline just taken is on its grid. -/
theorem deadlineOk_nextDeadline (now period : Nat) :
    deadlineOk now period (nextDeadline now period) :=
  ⟨dvd_nextDeadline .., le_rfl⟩

/-- Passing time keeps a deadline on its grid. -/
theorem deadlineOk_mono {now now' period next : Nat} (h : deadlineOk now period next)
    (hle : now ≤ now') : deadlineOk now' period next :=
  ⟨h.1, h.2.trans (nextDeadline_mono hle _)⟩

/-! ## The commands -/

/-- The part of the sequencer's ranges that is about the pending command (R93, R159). -/
structure CommandOk (r : Rtc) : Prop where
  designator : r.cmd.getLsbD 7 = true → r.cmd &&& 0xF8 = 0xB8
  extended : r.alt ≠ 0x00 → r.cmd &&& 0xF8 = 0x38

theorem commandOk_idle {r : Rtc} (hcmd : r.cmd = 0x00) (halt : r.alt = 0x00) : CommandOk r :=
  ⟨fun h => by simp [hcmd] at h, fun h => absurd halt h⟩

/-- An addressing byte is latched for an extended write only. -/
theorem CommandOk.alt_eq_zero {r : Rtc} (h : CommandOk r) (hcmd : ¬r.cmd &&& 0xF8 = 0x38) :
    r.alt = 0x00 :=
  not_not.1 fun halt => hcmd (h.extended halt)

/-- Whatever byte completes, the command it stands for leaves the pending command in its range. -/
theorem dispatch_commandOk {s t : State} {byte : Byte} (hok : CommandOk s.rtc)
    (h : exec (decodeRtc s.rtc.cmd byte) s = .next t) : CommandOk t.rtc := by
  have ofSame (hcmd : t.rtc.cmd = s.rtc.cmd) (halt : t.rtc.alt = s.rtc.alt) : CommandOk t.rtc :=
    ⟨by rw [hcmd]; exact hok.designator, by rw [hcmd, halt]; exact hok.extended⟩
  by_cases hz : s.rtc.cmd = 0x00
  · have halt : s.rtc.alt = 0x00 := hok.alt_eq_zero (by rw [hz]; decide)
    rw [hz] at h
    cases h7 : byte.getLsbD 7
    case false =>
      have hcode : ∀ code : BitVec 7, (0b0#1 ++ code).getLsbD 7 = false := by decide
      rw [decodeRtc_first_write byte h7] at h
      cases h
      exact ⟨fun hbit => (Bool.false_ne_true ((hcode _).symm.trans hbit)).elim,
        fun hne => absurd halt hne⟩
    case true =>
      rw [decodeRtc_first_read byte h7] at h
      split_ifs at h
      iterate 5
        · cases h
          exact ofSame rfl rfl
      · have hsel : ∀ k : BitVec 3, (0b10111#5 ++ k) &&& 0xF8#8 = 0xB8 := by decide
        cases h
        exact ⟨fun _ => hsel _, fun hne => absurd halt hne⟩
      · cases h
        exact ofSame rfl rfl
  cases h7 : s.rtc.cmd.getLsbD 7
  case true =>
    have hnot : ∀ c : Byte, c.getLsbD 7 = true → ¬c &&& 0xF8 = 0x38 := by decide
    rw [decodeRtc_xread h7] at h
    cases h
    exact commandOk_idle rfl (hok.alt_eq_zero (hnot _ h7))
  case false =>
    by_cases hext : s.rtc.cmd &&& 0xF8 = 0x38
    · rw [decodeRtc_extended_write hext] at h
      simp only [exec, execRtcXwr] at h
      split at h
      · cases h
        exact ⟨hok.designator, fun _ => hext⟩
      · cases h
        exact commandOk_idle rfl rfl
    · have halt := hok.alt_eq_zero hext
      rw [decodeRtc_wdata hz h7, if_neg hext] at h
      split_ifs at h <;> cases h <;> exact commandOk_idle rfl (by simpa using halt)

/-! ## The RTC step -/

/-- The ranges of the sequencer between the bit transfer and the completion of a byte: as
`Rtc.inRange`, with a whole byte assembled too. -/
structure MidStepRange (r : Rtc) : Prop where
  count : r.dataOutCount ≤ 8
  assembled : r.dataOut.toNat < 2 ^ r.dataOutCount
  queued : r.dataInCount ≤ 8
  queue : r.dataIn.toNat % 2 ^ (8 - r.dataInCount) = 0
  command : CommandOk r

theorem inRange_iff {r : Rtc} : r.inRange ↔ MidStepRange r ∧ r.dataOutCount < 8 := by
  constructor
  · rintro ⟨hcount, hassembled, hqueued, hqueue, hdesignator, hextended⟩
    exact ⟨⟨hcount.le, hassembled, hqueued, hqueue, hdesignator, hextended⟩, hcount⟩
  · rintro ⟨⟨-, hassembled, hqueued, hqueue, hdesignator, hextended⟩, hcount⟩
    exact ⟨hcount, hassembled, hqueued, hqueue, hdesignator, hextended⟩

/-- Taking a bit keeps the assembled byte as short as its count says (R37, R154). -/
theorem takeBit_midStep {s : State} (h : s.rtc.inRange) : MidStepRange s.takeBit.rtc := by
  obtain ⟨hmid, hcount⟩ := inRange_iff.1 h
  rw [takeBit_eq, setRtc_rtc]
  refine ⟨hcount, ?_, hmid.queued, hmid.queue, hmid.command.designator, hmid.command.extended⟩
  have hbit := (s.via1.b.getLsbD 0).toNat_lt
  have hassembled := hmid.assembled
  have hle := Nat.mod_le (2 * s.rtc.dataOut.toNat) 256
  simp only [shiftIn_toNat, Nat.pow_succ]
  omega

/-- Presenting a bit keeps the queue at the top of its byte (R37, R155). -/
theorem presentBit_midStep {s : State} (h : s.rtc.inRange) (hqueued : 0 < s.rtc.dataInCount) :
    MidStepRange s.presentBit.rtc := by
  obtain ⟨hmid, hcount⟩ := inRange_iff.1 h
  rw [presentBit_of_queued hqueued]
  refine ⟨hmid.count, hmid.assembled, (Nat.sub_le _ _).trans hmid.queued, ?_,
    hmid.command.designator, hmid.command.extended⟩
  have hq := hmid.queued
  have hexp : 8 - (s.rtc.dataInCount - 1) = 8 - s.rtc.dataInCount + 1 := by omega
  have hdvd : 2 ^ (8 - s.rtc.dataInCount + 1) ∣ 2 ^ 8 := Nat.pow_dvd_pow 2 (by omega)
  simp only [BitVec.toNat_shiftLeft, Nat.shiftLeft_eq, hexp]
  rw [Nat.mod_mod_of_dvd _ hdvd, pow_one, Nat.pow_succ, Nat.mul_mod_mul_right, hmid.queue]

theorem moveBit_midStep {s : State} (h : s.rtc.inRange) : MidStepRange s.moveBit.rtc := by
  rcases moveBit_cases s with hmove | hmove | ⟨-, hqueued, hmove⟩ <;> rw [hmove]
  · exact (inRange_iff.1 h).1
  · exact takeBit_midStep h
  · exact presentBit_midStep h hqueued

/-- Completing a byte empties the assembly, and the command keeps the rest in range (R156). -/
theorem completeByte_inRange {s : State} (h : MidStepRange s.rtc) : s.completeByte.rtc.inRange := by
  by_cases hcount : s.rtc.dataOutCount = 8
  · have hexec := exec_decodeRtc s s.rtc.dataOut
    have hcommand := dispatch_commandOk h.command hexec
    have heffect := exec_rtc_effect (decodeRtc_isRtc _ _) hexec
    rw [completeByte_of_eq hcount]
    refine ⟨by simp, by simp, ?_, ?_, hcommand.designator, hcommand.extended⟩
    · rcases heffect.queue with ⟨-, hn⟩ | hn
      · exact hn.trans_le h.queued
      · exact hn.le
    · rcases heffect.queue with ⟨hd, hn⟩ | hn
      · simpa only [setRtc_rtc, hd, hn] using h.queue
      · simp only [setRtc_rtc, hn, Nat.sub_self, pow_zero, Nat.mod_one]
  · rw [completeByte_of_ne hcount]
    exact inRange_iff.2 ⟨h, lt_of_le_of_ne h.count hcount⟩

/-- The RTC step keeps the ranges of the sequencer (R37). -/
theorem rtcStep_inRange {s : State} (h : s.rtc.inRange) : s.rtcStep.rtc.inRange := by
  rcases rtcStep_cases s with hstep | hstep <;> rw [hstep]
  · exact h
  · exact completeByte_inRange (moveBit_midStep h)

/-- The RTC step keeps the canonical form of the PRAM (R38). -/
theorem rtcStep_wf {s : State} (h : Memory.wf s.pram = true) : Memory.wf s.rtcStep.pram = true := by
  have hmove : s.moveBit.pram = s.pram := by
    rcases moveBit_cases s with hmove | hmove | ⟨-, hqueued, hmove⟩ <;> rw [hmove]
    · rw [takeBit_eq, setRtc_pram]
    · rw [presentBit_of_queued hqueued]
  rcases rtcStep_cases s with hstep | hstep <;> rw [hstep]
  · exact h
  rw [← hmove] at h
  by_cases hcount : s.moveBit.rtc.dataOutCount = 8
  · rw [completeByte_of_eq hcount, setRtc_pram]
    rcases (exec_rtc_effect (decodeRtc_isRtc _ _) (exec_decodeRtc s.moveBit _)).pram with
      hp | ⟨a, v, ha, hp⟩ <;> rw [hp]
    · exact h
    · exact wf_write v h ha
  · rw [completeByte_of_ne hcount]
    exact h

/-! ## The invariant -/

/-- A deadline after a step: as it was, or just taken. -/
def deadlineKept (t : State) (period next next' : Nat) : Prop :=
  next' = next ∨ next' = nextDeadline t.now period

/-- What changes neither the PRAM nor the sequencer, no bit of port B of VIA1 but the ADB-interrupt
bit, and no deadline but by taking the next one, keeps the invariant. -/
theorem inv_of_frame {s t : State} (h : s.Inv) (hpram : t.pram = s.pram) (hrtc : t.rtc = s.rtc)
    (hport : ∀ k, k ≠ 3 → t.via1.b.getLsbD k = s.via1.b.getLsbD k) (hnow : s.now ≤ t.now)
    (hvbl : deadlineKept t Config.periodVbl s.nextVbl t.nextVbl)
    (hsec : deadlineKept t Config.periodSec s.nextSec t.nextSec)
    (hadb : deadlineKept t Config.periodAdbpoll s.nextAdb t.nextAdb) : t.Inv := by
  have kept {period next next' : Nat} (hok : deadlineOk s.now period next)
      (hkept : deadlineKept t period next next') : deadlineOk t.now period next' := by
    rcases hkept with rfl | rfl
    · exact deadlineOk_mono hok hnow
    · exact deadlineOk_nextDeadline ..
  obtain ⟨hwf, hrange, hremembered, hokVbl, hokSec, hokAdb⟩ := h
  refine ⟨by rwa [hpram], by rwa [hrtc], fun k hk => ?_, kept hokVbl hvbl, kept hokSec hsec,
    kept hokAdb hadb⟩
  rw [hrtc, hport k hk, hremembered k hk]

/-- A write of port B of VIA1 keeps the invariant (R37, R157). -/
theorem inv_writePortB1 {s : State} (h : s.Inv) (data : Byte) : (writePortB1 s data).Inv := by
  obtain ⟨hwf, hrange, -, hokVbl, hokSec, hokAdb⟩ := h
  refine ⟨?_, ?_, fun k _ => ?_, ?_, ?_, ?_⟩
  · rw [writePortB1_pram]
    exact rtcStep_wf hwf
  · rw [writePortB1_rtc]
    exact rtcStep_inRange (s := s.storePortB .via1 data) hrange
  · rw [writePortB1_rtc]
  · simpa using hokVbl
  · simpa using hokSec
  · simpa using hokAdb

/-- A reset makes the invariant, of a canonical PRAM (R261). -/
theorem inv_resetBlock {s : State} (h : Memory.wf s.pram = true) : s.resetBlock.Inv := by
  refine ⟨h, ?_, fun _ _ => rfl, deadlineOk_nextDeadline .., deadlineOk_nextDeadline ..,
    deadlineOk_nextDeadline ..⟩
  simp [State.resetBlock, Rtc.atReset, Rtc.inRange]

/-- The invariant is about no stimulus on offer. -/
theorem inv_withPending {s : State} (h : s.Inv) (rest : List Stimulus) :
    ({ s with pending := rest } : State).Inv := h

/-- Every instruction of formats BUS and EVENT keeps the invariant. -/
theorem exec_keeps_inv {i : Instr} {s t : State} (hrtc : isRtc i = false) (hinv : s.Inv)
    (h : exec i s = .next t) : t.Inv := by
  cases effect_of_exec h with
  | read value hread => exact hinv
  | @registers _ bank v hbank hport hflags henables =>
    refine inv_of_frame hinv (by simp) (by simp) (fun k _ => ?_) (by simp) (.inl (by simp))
      (.inl (by simp)) (.inl (by simp))
    cases bank
    · exact congrArg (BitVec.getLsbD · k) hport
    · rfl
  | portB1 data => exact inv_writePortB1 hinv data
  | portB2 data b outputs => exact hinv
  | command hcommand heffect => rw [hrtc] at hcommand; cases hcommand
  | reset => exact inv_resetBlock hinv.1
  | advance dt =>
    exact inv_of_frame hinv rfl rfl (fun _ _ => rfl) (Nat.le_add_right ..) (.inl rfl) (.inl rfl)
      (.inl rfl)
  | early hfire => exact hinv
  | vbl =>
    exact inv_of_frame hinv rfl rfl (fun _ _ => rfl) le_rfl (.inr rfl) (.inl rfl) (.inl rfl)
  | sec =>
    exact inv_of_frame hinv rfl rfl (fun _ _ => rfl) le_rfl (.inl rfl) (.inr rfl) (.inl rfl)
  | adbpoll sr script calls outputs hport =>
    exact inv_of_frame hinv rfl rfl hport le_rfl (.inl rfl) (.inl rfl) (.inr rfl)

/-- No stimulus from outside is a row of format RTC (R80). -/
theorem decodeStimulus_not_rtc {st : Stimulus} {i : Instr} (h : decodeStimulus st = .ok i) :
    isRtc i = false := by
  cases st with
  | bus a =>
    obtain ⟨-, row, hrow, -, rfl⟩ := decodeBus_ok_iff.1 h
    exact (busRows_make a.bank a.data row hrow).2.1
  | event e =>
    simp only [decodeStimulus, decodeEvent] at h
    split at h <;> cases h <;> rfl

/-- Settles O58: what a step runs is of format BUS or EVENT, and each such instruction keeps the
invariant. -/
theorem stepKeepsTheInvariant : Obligations.StepKeepsTheInvariant := by
  intro s t hinv h
  rcases step_cases h with ⟨-, ht⟩ | ⟨st, rest, i, -, hdecode, ht⟩ | ⟨st, rest, why, -, -, ht⟩
  · cases ht
    exact hinv
  · exact exec_keeps_inv (decodeStimulus_not_rtc hdecode) (inv_withPending hinv rest) ht.symm
  · cases ht

/-- Settles O59. -/
theorem invariantHoldsAtReset : Obligations.InvariantHoldsAtReset :=
  inv_resetBlock (s := State.reset) rfl

/-- Settles O60: the restored machine has the snapshot's PRAM, sequencer and port, and deadlines
just taken. -/
theorem restoreGivesBackTheSnapshot : Obligations.RestoreGivesBackTheSnapshot := by
  intro s fresh
  refine ⟨rfl, rfl, fun ⟨hwf, hrange, hremembered, _⟩ => ?_⟩
  exact ⟨hwf, hrange, hremembered, deadlineOk_nextDeadline .., deadlineOk_nextDeadline ..,
    deadlineOk_nextDeadline ..⟩

end Sys2Proof.Proofs
end

section
/-! The rows of format RTC: what each one queues, latches or stores, and where (R160 to R178). -/

namespace Sys2Proof.Proofs
open Sys2Proof.Machine

/-! ## The seconds value -/

/-- Byte `n` of the seconds value, by arithmetic (R67). -/
theorem secondsByte_eq (x : BitVec 32) (n : Nat) :
    secondsByte x n = BitVec.ofNat 8 (x.toNat / 2 ^ (8 * n)) := by
  apply BitVec.eq_of_toNat_eq
  simp [secondsByte, BitVec.extractLsb'_toNat, Nat.shiftRight_eq_div_pow]

/-- The seconds value is the bias and the whole seconds of the clock, modulo 2^32 (R160). -/
theorem seconds_toNat (s : State) :
    s.seconds.toNat = (s.rtc.tickOffset.toNat + s.now / 1000000000) % 2 ^ 32 := by
  simp [State.seconds, Config.nsPerSecond, BitVec.toNat_add]

/-- Settles O37. -/
theorem secondsCommandsQueueTheFourBytes : Obligations.SecondsCommandsQueueTheFourBytes := by
  intro s seconds hseconds
  rw [← seconds_toNat] at hseconds
  have queued (n : Nat) (v : Byte) (hv : secondsByte s.seconds n = v) :
      s.queueResponse (secondsByte s.seconds n) =
        s.setRtc { s.rtc with dataIn := v, dataInCount := 8 } := by
    rw [hv]
    rfl
  have byte (n : Nat) : secondsByte s.seconds n = BitVec.ofNat 8 (seconds / 2 ^ (8 * n)) := by
    rw [secondsByte_eq, hseconds]
  refine ⟨rfl, rfl, rfl, rfl, ?_, ?_, ?_, ?_⟩
  · exact congrArg _ (queued 0 _ ((byte 0).trans (by simp)))
  · exact congrArg _ (queued 1 _ (byte 1))
  · exact congrArg _ (queued 2 _ (byte 2))
  · exact congrArg _ (queued 3 _ (byte 3))

/-! ## The indices that the commands reach -/

/-- The address of an extended command from the two numbers of its fields. -/
theorem xpramAddr_ofNat (stride : XpramStride) {sector addr : Nat} (hsector : sector < 8)
    (haddr : addr < 32) :
    xpramAddr stride (BitVec.ofNat 3 sector) (BitVec.ofNat 5 addr) =
      sector * strideValue stride + addr := by
  simp only [xpramAddr, BitVec.toNat_ofNat]
  rw [Nat.mod_eq_of_lt hsector, Nat.mod_eq_of_lt haddr]

theorem lowPramAddr_nibble_iff (i : Nat) :
    (∃ aa, lowPramAddr .nibble aa = i) ↔ 8 ≤ i ∧ i ≤ 11 := by
  constructor
  · rintro ⟨aa, rfl⟩
    exact (lowPramAddr_range aa).1
  · intro h
    refine ⟨BitVec.ofNat 2 (i - 8), ?_⟩
    simp only [lowPramAddr, BitVec.toNat_ofNat]
    omega

theorem lowPramAddr_twoBits_iff (i : Nat) : (∃ aa, lowPramAddr .twoBits aa = i) ↔ i ≤ 3 := by
  constructor
  · rintro ⟨aa, rfl⟩
    exact (lowPramAddr_range aa).2
  · intro h
    refine ⟨BitVec.ofNat 2 i, ?_⟩
    simp only [lowPramAddr, BitVec.toNat_ofNat]
    omega

theorem xpramAddr_eight_iff (i : Nat) :
    (∃ sector addr, xpramAddr .eight sector addr = i) ↔ i ≤ 87 := by
  constructor
  · rintro ⟨sector, addr, rfl⟩
    exact (xpramAddr_range sector addr).1
  · intro h
    refine ⟨_, _, (xpramAddr_ofNat .eight (sector := min (i / 8) 7)
      (addr := i - 8 * min (i / 8) 7) (by omega) (by omega)).trans ?_⟩
    simp only [strideValue]
    omega

/-- With stride 8 the windows of neighbouring sectors overlap, so that all but the ends of the range
have more than one name (R177; log entry 24). -/
theorem xpramAddr_eight_two_sectors_iff (i : Nat) :
    (∃ sector addr sector' addr', sector ≠ sector' ∧
      xpramAddr .eight sector addr = i ∧ xpramAddr .eight sector' addr' = i) ↔ 8 ≤ i ∧ i ≤ 79 := by
  constructor
  · rintro ⟨sector, addr, sector', addr', hne, h, h'⟩
    have hne := mt BitVec.toNat_inj.1 hne
    have h1 := sector.isLt
    have h2 := sector'.isLt
    have h3 := addr.isLt
    have h4 := addr'.isLt
    simp only [xpramAddr, strideValue] at h h'
    omega
  · intro h
    obtain ⟨a, ha⟩ : ∃ a, a = min (i / 8) 7 := ⟨_, rfl⟩
    refine ⟨_, _, _, _, ?_, (xpramAddr_ofNat .eight (sector := a) (addr := i - 8 * a) (by omega)
        (by omega)).trans ?_, (xpramAddr_ofNat .eight (sector := a - 1) (addr := i - 8 * (a - 1))
        (by omega) (by omega)).trans ?_⟩
    · rw [ne_eq, ← BitVec.toNat_inj, BitVec.toNat_ofNat, BitVec.toNat_ofNat]
      omega
    · simp only [strideValue]
      omega
    · simp only [strideValue]
      omega

theorem xpramAddr_thirtyTwo_iff (i : Nat) :
    (∃ sector addr, xpramAddr .thirtyTwo sector addr = i) ↔ i ≤ 255 := by
  constructor
  · rintro ⟨sector, addr, rfl⟩
    exact (xpramAddr_range sector addr).2
  · intro h
    refine ⟨_, _, (xpramAddr_ofNat .thirtyTwo (sector := i / 32) (addr := i % 32) (by omega)
      (by omega)).trans ?_⟩
    simp only [strideValue]
    omega

/-- With stride 32 the two fields are the digits of the address. -/
theorem xpramAddr_thirtyTwo_inj {sector sector' : BitVec 3} {addr addr' : BitVec 5}
    (h : xpramAddr .thirtyTwo sector addr = xpramAddr .thirtyTwo sector' addr') :
    sector = sector' ∧ addr = addr' := by
  have h3 := addr.isLt
  have h4 := addr'.isLt
  simp only [xpramAddr, strideValue] at h
  exact ⟨BitVec.eq_of_toNat_eq (by omega), BitVec.eq_of_toNat_eq (by omega)⟩

/-- Settles O38. -/
theorem pramReadsQueueTheByte : Obligations.PramReadsQueueTheByte :=
  ⟨fun _ _ _ _ => ⟨rfl, rfl, rfl, rfl, rfl, rfl⟩, lowPramAddr_nibble_iff, lowPramAddr_twoBits_iff,
    xpramAddr_eight_iff, xpramAddr_eight_two_sectors_iff, xpramAddr_thirtyTwo_iff,
    fun _ _ _ _ => xpramAddr_thirtyTwo_inj⟩

/-! ## Commands that latch or end -/

/-- Settles O39. -/
theorem commandBytesAreLatched : Obligations.CommandBytesAreLatched := by
  intro s sector code
  have hsector : ∀ k : BitVec 3, 0b10111#5 ++ k = BitVec.ofNat 8 (0xB8 + k.toNat) := by decide
  have hcode : ∀ c : BitVec 7, 0b0#1 ++ c = BitVec.ofNat 8 c.toNat := by decide
  rw [← hsector, ← hcode]
  exact ⟨rfl, rfl⟩

/-- Settles O43. -/
theorem otherWriteCommandsEndTheCommand : Obligations.OtherWriteCommandsEndTheCommand :=
  fun _ _ _ _ => ⟨rfl, rfl, rfl, rfl, rfl, rfl⟩

/-! ## Commands that store -/

theorem pramStore_of_protected {s : State} (h : s.rtc.wprotect = true) (a : Nat) (v : Byte) :
    s.pramStore a v = s := if_pos h

/-- What a store of a command leaves in a canonical PRAM (R172, R173, R178). -/
theorem pramStore_reads {s : State} (hwf : Memory.wf s.pram = true) (a : Nat) (v : Byte) :
    (s.rtc.wprotect = true → (s.pramStore a v).pram = s.pram) ∧
      (s.rtc.wprotect = false → Memory.read (s.pramStore a v).pram a = v) ∧
      ∀ i, i ≠ a → Memory.read (s.pramStore a v).pram i = Memory.read s.pram i := by
  rw [pramStore_pram]
  cases s.rtc.wprotect
  · exact ⟨nofun, fun _ => read_write_same v hwf, fun i hi => read_write_other s.pram v hi⟩
  · exact ⟨fun _ => rfl, nofun, fun _ _ => rfl⟩

theorem lowPramAddr_eq (low : LowPram) (aa : BitVec 2) :
    lowPramAddr low aa = (if low = .nibble then 8 else 0) + aa.toNat := by
  cases low
  · rfl
  · exact (Nat.zero_add _).symm

theorem strideValue_eq (stride : XpramStride) :
    strideValue stride = if stride = .eight then 8 else 32 := by
  cases stride <;> rfl

/-- Settles O41. -/
theorem extendedWriteTakesTwoCycles : Obligations.ExtendedWriteTakesTwoCycles := by
  intro s sector byte stride hstride
  refine ⟨fun halt => if_pos halt, fun halt hwf => ?_⟩
  have haddr : xpramAddr s.params.xpramStride sector (addrField s.rtc.alt) =
      sector.toNat * stride + s.rtc.alt.toNat / 4 % 32 := by
    rw [xpramAddr, strideValue_eq, ← hstride, addrField_toNat]
  have hstore := pramStore_reads hwf
    (xpramAddr s.params.xpramStride sector (addrField s.rtc.alt)) byte
  rw [haddr] at hstore
  obtain ⟨t, ht, hframe⟩ := exec_rtc_completes (i := .rtcXwr sector byte) rfl s
  have hexec : exec (.rtcXwr sector byte) s = _ := if_neg halt
  cases hexec.symm.trans ht
  exact ⟨_, hexec, hframe, by simp, by rw [haddr]; exact hstore⟩

/-- Settles O42. -/
theorem lowBankWriteStoresTheByte : Obligations.LowBankWriteStoresTheByte := by
  intro s aa data index hwf hindex
  rw [← lowPramAddr_eq] at hindex
  subst hindex
  obtain ⟨t, ht, hframe⟩ := exec_rtc_completes (i := .rtcWrpram aa data) rfl s
  cases ht
  exact ⟨_, rfl, hframe, by simp, pramStore_reads hwf _ data⟩

/-- Settles O45. -/
theorem pramWriteIsReadBack : Obligations.PramWriteIsReadBack := by
  intro s aa data index stride hwf hprotect hindex hstride
  rw [← lowPramAddr_eq] at hindex
  rw [← strideValue_eq] at hstride
  subst hindex hstride
  have hread : Memory.read (s.pramStore (lowPramAddr s.params.lowPram aa) data).pram
      (lowPramAddr s.params.lowPram aa) = data := (pramStore_reads hwf _ data).2.1 hprotect
  refine ⟨_, rfl, ⟨_, rfl, ?_, rfl⟩, fun sector addr hname => ⟨_, rfl, ?_, rfl⟩⟩
  · simpa [State.pramRead] using hread
  · simpa [State.pramRead, xpramAddr, hname] using hread

/-- Settles O44. -/
theorem writeProtectionStopsStoresAlone : Obligations.WriteProtectionStopsStoresAlone := by
  intro i s t u hrtc hprotect h hfree
  cases i with
  | rtcXwr sector byte => 
    simp only [exec, execRtcXwr, pramStore_of_protected hprotect] at h hfree
    split at h
    · next halt =>
      rw [if_pos halt] at hfree
      cases h; cases hfree
      exact ⟨rfl, hprotect⟩
    · next halt =>
      rw [if_neg halt] at hfree
      cases h; cases hfree
      exact ⟨rfl, hprotect⟩
  | rtcWrpram aa data =>
    simp only [exec, execRtcWrpram, pramStore_of_protected hprotect] at h hfree
    cases h; cases hfree
    exact ⟨rfl, hprotect⟩
  | rtcWprot p => 
    cases h; cases hfree
    exact ⟨rfl, rfl⟩
  | rtcRdsec0 | rtcRdsec1 | rtcRdsec2 | rtcRdsec3 | rtcRdpram aa | rtcRdpramDead aa
  | rtcXrdsel sector | rtcRdnop byte | rtcWrcmd code | rtcXrd sector addr
  | rtcWrpramDead aa data | rtcWrsec0 data | rtcWrsec1 data | rtcWrsec2 data
  | rtcWrsec3 data | rtcWrnop cmd data =>
    cases h; cases hfree
    exact ⟨rfl, hprotect⟩
  | _ => cases hrtc

end Sys2Proof.Proofs
end

section
/-! The bus operations on the registers, read by read and write by write (R110 to R141). -/

namespace Sys2Proof.Proofs
open Sys2Proof.Machine

/-! ## Reads -/

/-- Settles O12. -/
theorem portReadsReturnTheStoredByte : Obligations.PortReadsReturnTheStoredByte :=
  fun _ _ => ⟨⟨_, rfl, rfl⟩, ⟨_, rfl, rfl⟩, ⟨_, rfl, rfl⟩, ⟨_, rfl, rfl⟩, ⟨_, rfl, rfl⟩⟩

theorem lowByte_eq (c : Count) : lowByte c = BitVec.ofNat 8 c.toNat := by
  apply BitVec.eq_of_toNat_eq
  rw [lowByte_toNat, BitVec.toNat_ofNat]

theorem highByte_eq (c : Count) : highByte c = BitVec.ofNat 8 (c.toNat / 256) := by
  apply BitVec.eq_of_toNat_eq
  have := c.isLt
  rw [highByte_toNat, BitVec.toNat_ofNat]
  omega

/-- Settles O13. -/
theorem timerReadsReturnOneByteOfTheCount : Obligations.TimerReadsReturnOneByteOfTheCount := by
  intro bank s
  simp only [← lowByte_eq, ← highByte_eq]
  exact ⟨⟨_, rfl, rfl⟩, ⟨_, rfl, rfl⟩, ⟨_, rfl, rfl⟩, ⟨_, rfl, rfl⟩, ⟨_, rfl, rfl⟩, ⟨_, rfl, rfl⟩⟩

/-- A bit above seven, by arithmetic. -/
theorem bit7_append (b : Bool) (x : BitVec 7) :
    (BitVec.ofBool b ++ x : Byte) = BitVec.ofNat 8 ((if b then 128 else 0) + x.toNat) := by
  revert b x; decide

theorem ifrByte_eq (v : Via) :
    ifrByte v = BitVec.ofNat 8 ((if v.ifr &&& v.ier = 0 then 0 else 128) + v.ifr.toNat) := by
  rw [ifrByte, bit7_append, Via.summary]
  by_cases h : v.ifr &&& v.ier = 0 <;> simp [h]

/-- Settles O14. -/
theorem controlReadsReturnTheRegister : Obligations.ControlReadsReturnTheRegister := by
  intro bank s
  rw [← ifrByte_eq, ← bit7_append]
  exact ⟨⟨_, rfl, rfl⟩, ⟨_, rfl, rfl⟩, ⟨_, rfl, rfl⟩, ⟨_, rfl, rfl⟩, ⟨_, rfl, rfl⟩⟩

/-! ## Writes -/

/-- Every access with a row's masked word stands for the row's instruction (R82). -/
theorem encodedBy_of_mem_busRows {row : BusRow} (hrow : row ∈ busRows) (bank : BankId)
    (data : Byte) : EncodedBy row.pattern bank data (row.make bank data) := by
  rintro a hsize rfl rfl hword
  exact decodeBus_of_mem_busRows hrow hsize hword

/-- Settles O15: the rows of index 2, 3, 11 and 12, and four plain stores. -/
theorem directionAndControlWritesOnlyStore : Obligations.DirectionAndControlWritesOnlyStore := by
  intro bank data s
  have encoded (k : Fin 16) : EncodedBy busWriteRows[k].pattern bank data
      (busWriteRows[k].make bank data) :=
    encodedBy_of_mem_busRows (List.mem_append_right _ (List.getElem_mem _)) bank data
  exact ⟨encoded 2, rfl, encoded 3, rfl, encoded 11, rfl, encoded 12, rfl⟩

/-- Settles O16. -/
theorem latchAndShiftWritesOnlyStore : Obligations.LatchAndShiftWritesOnlyStore :=
  fun _ _ _ => ⟨rfl, rfl, rfl⟩

/-- Settles O17. -/
theorem writeOfPortAIsMasked : Obligations.WriteOfPortAIsMasked := by
  intro bank data s
  refine ⟨_, rfl, onlyBank_setVia .., ?_, fun k => ?_⟩
  · rw [setVia_via_same]
  · rw [setVia_via_same]
    exact maskedStore_bit ..

/-- The power check adds an output and nothing else, when bit 2 is an output and low (R224). -/
theorem powerCheck_eq (s : State) : s.powerCheck = { s with
    outputs := if s.via2.dirb.getLsbD 2 = true ∧ s.via2.b.getLsbD 2 = false
      then .shutdownRequest :: s.outputs else s.outputs } := by
  rw [State.powerCheck, powerLow_bit]
  simp only [Bool.and_eq_true, Bool.not_eq_true']
  split <;> rfl

/-- Settles O18. -/
theorem writeOfPortBOfVia2ChecksThePowerBit : Obligations.WriteOfPortBOfVia2ChecksThePowerBit := by
  intro data s
  have hexec : exec (.wrOrb .via2 data) s = .next _ :=
    congrArg Host.Outcome.next (powerCheck_eq (s.storePortB .via2 data))
  exact ⟨⟨_, hexec, rfl, maskedStore_bit _ _ data, rfl⟩, ⟨_, rfl, setVia_outputs ..⟩⟩

/-- Settles O19. -/
theorem latchWritesReplaceOneByte : Obligations.LatchWritesReplaceOneByte := by
  intro bank data s
  refine ⟨⟨_, rfl, ?_⟩, ⟨_, rfl, ?_⟩, ⟨_, rfl, ?_⟩⟩
  · rw [withLowByte, joinBytes_toNat, highByte_toNat]
  · rw [withLowByte, joinBytes_toNat, highByte_toNat]
  · rw [withHighByte, joinBytes_toNat, lowByte_toNat]

/-- Settles O20. -/
theorem highByteWritesLoadAndArm : Obligations.HighByteWritesLoadAndArm := by
  intro bank data s
  refine ⟨⟨_, rfl, ?_⟩, ⟨_, rfl, ?_⟩⟩
  · rw [withHighByte, joinBytes_toNat, lowByte_toNat]
  · rw [joinBytes_toNat]

/-- Settles O21. -/
theorem acknowledgeClearsTheNamedFlags : Obligations.AcknowledgeClearsTheNamedFlags := by
  intro bank data s
  refine ⟨_, rfl, onlyBank_setVia .., ?_, fun h7 => ?_, fun h7 k hk => ?_⟩
  · rw [setVia_via_same]
  · have hkeep : acknowledge (s.via bank).ifr data = (s.via bank).ifr := by
      rw [acknowledge, irqSet, h7, if_neg Bool.false_ne_true]
    rw [hkeep]
    exact setVia_self ..
  · rw [setVia_via_same]
    exact (acknowledge_bit _ _ k hk).trans (by rw [h7, Bool.true_and])

/-- Settles O22. -/
theorem enableWritesSetOrClearTheNamedEnables :
    Obligations.EnableWritesSetOrClearTheNamedEnables := by
  intro bank data s
  refine ⟨_, rfl, onlyBank_setVia .., ?_, fun k hk => ?_⟩
  · rw [setVia_via_same]
  · rw [setVia_via_same]
    exact setEnables_bit _ _ k hk

end Sys2Proof.Proofs
end

section
/-! The events: reset and construction, the clock and its three timers, the counters and the fan-in
(R205 to R222, R260). -/

namespace Sys2Proof.Proofs
open Sys2Proof.Machine

/-! ## Reset and construction -/

/-- Settles O46. -/
theorem resetSetsTheDefaults : Obligations.ResetSetsTheDefaults := fun _ => rfl

/-- A second reset at the same moment changes nothing. -/
theorem resetBlock_idem (s : State) : s.resetBlock.resetBlock = s.resetBlock := rfl

/-- A reset leaves no flag, so both lines are low (R32, R238). -/
theorem resetBlock_irq (s : State) (bank : BankId) : s.resetBlock.irq bank = false := by
  cases bank <;> simp [State.irq, Via.summary, State.resetBlock, Via.atReset]

/-- Settles O47: construction ends with a reset. -/
theorem resetStateIsAConstructedMachine : Obligations.ResetStateIsAConstructedMachine := by
  refine ⟨fun params pramInit bias w => ?_, rfl, rfl, resetBlock_irq State.reset⟩
  have hdriven : (State.construct params pramInit bias w).driven =
      [(w.irq.via1, false), (w.irq.via2, false)] := by
    rw [State.driven, State.construct, resetBlock_irq, resetBlock_irq]
    rfl
  exact ⟨_, rfl, congrArg Host.Outcome.next (resetBlock_idem _), rfl, rfl, rfl, rfl, rfl, rfl, rfl,
    rfl, rfl, hdriven⟩

/-! ## The clock and its timers -/

/-- Settles O49. -/
theorem advanceMovesTheClockAlone : Obligations.AdvanceMovesTheClockAlone := fun _ _ => rfl

/-- The mask of one flag. -/
theorem flagMask_bit (n : Nat) {k : Nat} (hk : k < 7) :
    (1#7 <<< n).getLsbD k = decide (k = n) := by
  rw [← BitVec.twoPow_eq, BitVec.getLsbD_twoPow]
  by_cases h : n = k
  · simp [h, hk]
  · simp [h, Ne.symm h]

/-- A flag set by its mask, flag by flag. -/
theorem or_flag_bit (ifr : BitVec 7) (n : Nat) :
    ∀ k, k < 7 → (ifr ||| 1#7 <<< n).getLsbD k = (decide (k = n) || ifr.getLsbD k) := by
  intro k hk
  rw [BitVec.getLsbD_or, flagMask_bit n hk, Bool.or_comm]

/-- Settles O50. -/
theorem dueTimersSetTheirFlag : Obligations.DueTimersSetTheirFlag := by
  intro s
  exact ⟨fun hdue => ⟨_, if_pos hdue, or_flag_bit s.via1.ifr 1⟩,
    fun hdue => ⟨_, if_pos hdue, or_flag_bit s.via1.ifr 0⟩⟩

/-- Settles O52. -/
theorem firingBeforeTheDeadlineChangesNothing :
    Obligations.FiringBeforeTheDeadlineChangesNothing :=
  fun _ => ⟨fun h => if_neg (Nat.not_le.2 h), fun h => if_neg (Nat.not_le.2 h),
    fun h => if_neg (Nat.not_le.2 h)⟩

/-- With the ADB-interrupt bit clear a poll takes its next deadline alone (R196, R210). -/
theorem serveAdbpoll_of_clear {s : State} (hbit : s.via1.b.getLsbD 3 = false) :
    s.serveAdbpoll = { s with nextAdb := nextDeadline s.now Config.periodAdbpoll } := by
  rw [State.serveAdbpoll, State.adbPoll, adbInt_bit, hbit]
  rfl

/-- The call a poll makes (R196). -/
def pollCall (s : State) : AdbCall := .poll (adbStateField s.via1.b) s.via1.sr

/-- With the bit set a poll makes one call, takes the answer's byte, and leaves the bit set exactly
when the answer is no success (R196, R210). -/
theorem serveAdbpoll_of_set {s : State} (hbit : s.via1.b.getLsbD 3 = true) :
    s.serveAdbpoll = { s with
      via1 := { s.via1 with
        b := withAdbInt s.via1.b (!(s.adbReply (pollCall s)).ok)
        sr := (s.adbReply (pollCall s)).byte }
      nextAdb := nextDeadline s.now Config.periodAdbpoll
      adbScript := s.adbScript.tail
      adbCalls := s.adbCalls + 1
      outputs := .adbCall (pollCall s) :: s.outputs } := by
  have hset : ∀ b : Byte, b.getLsbD 3 = true → withAdbInt b true = b := by decide
  have hpoll : s.adbPoll =
      let asked := (s.adbAsked (pollCall s)).setSr1 (s.adbReply (pollCall s)).byte
      if (s.adbReply (pollCall s)).ok then asked.setAdbInt false else asked := by
    rw [State.adbPoll, adbInt_bit, if_pos hbit]
    rfl
  rw [State.serveAdbpoll, hpoll]
  cases (s.adbReply (pollCall s)).ok
  · rw [Bool.not_false, hset _ hbit]
    rfl
  · rfl

/-- Settles O51. -/
theorem duePollOffersTheShiftRegister : Obligations.DuePollOffersTheShiftRegister := by
  intro s hdue
  have hexec : exec .fireAdbpoll s = .next s.serveAdbpoll := if_pos hdue
  refine ⟨fun hbit => ?_, fun hbit call hcall => ⟨_, ?_, withAdbInt_bit _ _⟩⟩
  · rw [hexec, serveAdbpoll_of_clear hbit]
    rfl
  · obtain rfl : call = pollCall s := hcall
    rw [hexec, serveAdbpoll_of_set hbit]
    rfl

/-! ## Two firings -/

/-- A firing: served if due, else nothing. -/
def fireIf (due : State → Bool) (serve : State → State) (s : State) : State :=
  if due s then serve s else s

/-- Two firings commute, if their services do and neither makes the other due or not. -/
theorem fireIf_comm {due due' : State → Bool} {serve serve' : State → State}
    (hdue : ∀ s, due (serve' s) = due s) (hdue' : ∀ s, due' (serve s) = due' s)
    (hserve : ∀ s, serve (serve' s) = serve' (serve s)) (s : State) :
    fireIf due serve (fireIf due' serve' s) = fireIf due' serve' (fireIf due serve s) := by
  unfold fireIf
  cases h : due s <;> cases h' : due' s <;> simp [h, h', hdue, hdue', hserve]

/-- The deadline of a firing; the other instructions have none. -/
def deadlineOf : Instr → State → Nat
  | .fireVbl, s => s.nextVbl
  | .fireSec, s => s.nextSec
  | _, s => s.nextAdb

/-- What a due firing does (R208 to R210). -/
def serve : Instr → State → State
  | .fireVbl, s => s.serveVbl
  | .fireSec, s => s.serveSec
  | _, s => s.serveAdbpoll

/-- The three firings (R207). -/
def firings : List Instr := [.fireVbl, .fireSec, .fireAdbpoll]

/-- The state after a firing, due or not (R207; log entry 6). -/
def fire (i : Instr) : State → State :=
  fireIf (fun s => decide (deadlineOf i s ≤ s.now)) (serve i)

theorem exec_eq_fire {i : Instr} (hi : i ∈ firings) (s : State) : exec i s = .next (fire i s) := by
  have hnext (p : Prop) [Decidable p] (t : State) :
      (if p then Host.Outcome.next t else .next s : Result) =
        .next (if decide p then t else s) := by
    split <;> simp [*]
  simp only [firings, List.mem_cons, List.not_mem_nil, or_false] at hi
  rcases hi with rfl | rfl | rfl
  · exact hnext ..
  · exact hnext ..
  · exact hnext ..

/-- A poll moves neither the clock nor the deadline of another timer. -/
@[simp] theorem serveAdbpoll_clock (s : State) :
    s.serveAdbpoll.now = s.now ∧ s.serveAdbpoll.nextVbl = s.nextVbl ∧
      s.serveAdbpoll.nextSec = s.nextSec := by
  cases hbit : s.via1.b.getLsbD 3
  · rw [serveAdbpoll_of_clear hbit]
    exact ⟨rfl, rfl, rfl⟩
  · rw [serveAdbpoll_of_set hbit]
    exact ⟨rfl, rfl, rfl⟩

/-- The two flags are set by masks, in either order. -/
theorem serveVbl_serveSec (s : State) : s.serveSec.serveVbl = s.serveVbl.serveSec := by
  have hflags : s.via1.ifr ||| Config.ifrSec ||| Config.ifrVbl =
      s.via1.ifr ||| Config.ifrVbl ||| Config.ifrSec := by
    rw [BitVec.or_assoc, BitVec.or_comm Config.ifrSec, BitVec.or_assoc]
  simp only [State.serveVbl, State.serveSec, hflags]

/-- A poll reads and writes no flag and no other deadline. -/
theorem serveVbl_serveAdbpoll (s : State) :
    s.serveAdbpoll.serveVbl = s.serveVbl.serveAdbpoll := by
  cases hbit : s.via1.b.getLsbD 3
  · rw [serveAdbpoll_of_clear hbit, serveAdbpoll_of_clear (s := s.serveVbl) hbit]
    rfl
  · rw [serveAdbpoll_of_set hbit, serveAdbpoll_of_set (s := s.serveVbl) hbit]
    rfl

theorem serveSec_serveAdbpoll (s : State) :
    s.serveAdbpoll.serveSec = s.serveSec.serveAdbpoll := by
  cases hbit : s.via1.b.getLsbD 3
  · rw [serveAdbpoll_of_clear hbit, serveAdbpoll_of_clear (s := s.serveSec) hbit]
    rfl
  · rw [serveAdbpoll_of_set hbit, serveAdbpoll_of_set (s := s.serveSec) hbit]
    rfl

/-- Two firings commute (R242). -/
theorem fire_comm {i j : Instr} (hi : i ∈ firings) (hj : j ∈ firings) (s : State) :
    fire j (fire i s) = fire i (fire j s) := by
  have vblSec : ∀ s, fire .fireVbl (fire .fireSec s) = fire .fireSec (fire .fireVbl s) :=
    fireIf_comm (fun _ => rfl) (fun _ => rfl) serveVbl_serveSec
  have vblAdb : ∀ s, fire .fireVbl (fire .fireAdbpoll s) = fire .fireAdbpoll (fire .fireVbl s) :=
    fireIf_comm (fun s => decide_eq_decide.2 (by simp [deadlineOf, serve])) (fun _ => rfl)
      serveVbl_serveAdbpoll
  have secAdb : ∀ s, fire .fireSec (fire .fireAdbpoll s) = fire .fireAdbpoll (fire .fireSec s) :=
    fireIf_comm (fun s => decide_eq_decide.2 (by simp [deadlineOf, serve])) (fun _ => rfl)
      serveSec_serveAdbpoll
  simp only [firings, List.mem_cons, List.not_mem_nil, or_false] at hi hj
  rcases hi with rfl | rfl | rfl <;> rcases hj with rfl | rfl | rfl
  · rfl
  · exact (vblSec s).symm
  · exact (vblAdb s).symm
  · exact vblSec s
  · rfl
  · exact (secAdb s).symm
  · exact vblAdb s
  · exact secAdb s
  · rfl

/-- A firing that was served has a deadline later than the clock, even on the grid (R206, R207). -/
theorem serve_deadline_lt {i : Instr} (hi : i ∈ firings) (s : State) :
    (serve i s).now < deadlineOf i (serve i s) := by
  simp only [firings, List.mem_cons, List.not_mem_nil, or_false] at hi
  rcases hi with rfl | rfl | rfl
  · exact lt_nextDeadline _ (by decide)
  · exact lt_nextDeadline _ (by decide)
  · simp only [serve, serveAdbpoll_clock]
    exact lt_nextDeadline _ (by decide)

/-- After a firing the deadline is later than the clock, served or not. -/
theorem fire_deadline_lt {i : Instr} (hi : i ∈ firings) (s : State) :
    (fire i s).now < deadlineOf i (fire i s) := by
  unfold fire fireIf
  split
  · exact serve_deadline_lt hi s
  · next hlate => simpa using hlate

/-- A firing does not repeat without time passing (R207). -/
theorem fire_fire {i : Instr} (hi : i ∈ firings) (s : State) : fire i (fire i s) = fire i s := by
  have hlate := fire_deadline_lt hi s
  generalize fire i s = t at hlate ⊢
  exact if_neg (by simpa using hlate)

/-- Settles O53. -/
theorem firingsCommuteAndDoNotRepeat : Obligations.FiringsCommuteAndDoNotRepeat := by
  intro s t u v w i j hi hj ht hu hv hw
  change i ∈ firings at hi
  change j ∈ firings at hj
  rw [exec_eq_fire hi] at ht hw
  rw [exec_eq_fire hj] at hu hv
  cases ht
  cases hu
  cases hv
  cases hw
  have hlate := fire_deadline_lt hi s
  refine ⟨fire_comm hi hj s, by rw [exec_eq_fire hi, fire_fire hi], ?_, ?_, ?_⟩ <;>
    · rintro rfl
      exact hlate

/-! ## The counters -/

/-- Above zero a tick of timer 1 counts down and does nothing else (R214). -/
theorem tickT1_of_ne {v : Via} (h : v.t1c ≠ 0) : v.tickT1 = { v with t1c := v.t1c - 1 } := if_neg h

theorem tickT1_freerun {v : Via} (h : v.t1c = 0) (hfree : v.acr.getLsbD 6 = true) :
    v.tickT1 = { v with t1c := v.t1l, ifr := v.ifr ||| Config.ifrT1 } := by
  rw [Via.tickT1, if_pos h, t1Freerun_bit, if_pos hfree]

theorem tickT1_armed {v : Via} (h : v.t1c = 0) (hshot : v.acr.getLsbD 6 = false)
    (harmed : v.t1armed = true) :
    v.tickT1 = { v with t1c := 0xFFFF, ifr := v.ifr ||| Config.ifrT1, t1armed := false } := by
  rw [Via.tickT1, if_pos h, t1Freerun_bit, hshot, if_neg Bool.false_ne_true, if_pos harmed]

theorem tickT1_unarmed {v : Via} (h : v.t1c = 0) (hshot : v.acr.getLsbD 6 = false)
    (harmed : v.t1armed = false) : v.tickT1 = { v with t1c := 0xFFFF } := by
  rw [Via.tickT1, if_pos h, t1Freerun_bit, hshot, if_neg Bool.false_ne_true, harmed,
    if_neg Bool.false_ne_true]

/-- Counting down is exact above zero. -/
theorem count_sub_one {c : Count} (h : c ≠ 0) : (c - 1).toNat + 1 = c.toNat := by
  bv_omega

/-- Settles O54. -/
theorem tickOfTimer1 : Obligations.TickOfTimer1 := by
  rintro bank s v rfl
  generalize hv : s.via bank = v
  refine ⟨v.tickT1, by rw [← hv]; rfl, fun h => ?_, fun h hfree => ?_, fun h hshot harmed => ?_,
    fun h hshot harmed => tickT1_unarmed h hshot harmed, fun h hflag => ?_⟩
  · rw [tickT1_of_ne h]
    exact ⟨rfl, count_sub_one h⟩
  · rw [tickT1_freerun h hfree]
  · rw [tickT1_armed h hshot harmed]
  · cases hmode : v.acr.getLsbD 6
    · rw [tickT1_armed h hmode (hflag.resolve_left (by rw [hmode]; exact Bool.false_ne_true))]
      exact or_flag_bit v.ifr 6
    · rw [tickT1_freerun h hmode]
      exact or_flag_bit v.ifr 6

/-- Settles O55. -/
theorem tickOfTimer2 : Obligations.TickOfTimer2 := by
  rintro bank s v rfl
  generalize hv : s.via bank = v
  refine ⟨v.tickT2, by rw [← hv]; rfl, fun h => ?_, fun h harmed => ?_, fun h harmed => ?_⟩
  · rw [Via.tickT2, if_neg h]
    exact ⟨rfl, count_sub_one h⟩
  · rw [Via.tickT2, if_pos h, if_pos harmed]
    exact ⟨rfl, or_flag_bit v.ifr 5⟩
  · rw [Via.tickT2, if_pos h, harmed, if_neg Bool.false_ne_true]

/-- A number of ticks is that number less one, and one more (R214). -/
theorem ticks_add (tick : Via → Via) (m n : Nat) (v : Via) :
    ticks tick (m + n) v = ticks tick n (ticks tick m v) := by
  induction m generalizing v with
  | zero => rw [Nat.zero_add, ticks]
  | succ m ih => rw [Nat.succ_add, ticks, ih, ticks]

/-- Until the count is used up, ticks of timer 1 count down and do nothing else. -/
theorem ticks_tickT1_countdown {m : Nat} {v : Via} (h : m ≤ v.t1c.toNat) :
    ticks Via.tickT1 m v = { v with t1c := v.t1c - BitVec.ofNat 16 m } := by
  induction m generalizing v with
  | zero => simp [ticks]
  | succ m ih =>
    have hne : v.t1c ≠ 0 := by bv_omega
    rw [ticks, tickT1_of_ne hne, ih (by have := count_sub_one hne; simp only; omega)]
    have hcount : v.t1c - 1 - BitVec.ofNat 16 m = v.t1c - BitVec.ofNat 16 (m + 1) := by
      bv_omega
    rw [hcount]

/-- After as many ticks as the count says it stands at zero. -/
theorem ticks_tickT1_zero (v : Via) : ticks Via.tickT1 v.t1c.toNat v = { v with t1c := 0 } := by
  rw [ticks_tickT1_countdown le_rfl, BitVec.ofNat_toNat, BitVec.setWidth_eq, BitVec.sub_self]
  rfl

/-- A one-shot timer 1 that is not armed: no tick makes it armed or sets a flag (R214). -/
theorem ticks_tickT1_unarmed {v : Via} (hshot : v.acr.getLsbD 6 = false)
    (harmed : v.t1armed = false) (m : Nat) : ∃ c, ticks Via.tickT1 m v = { v with t1c := c } := by
  induction m generalizing v with
  | zero => exact ⟨v.t1c, rfl⟩
  | succ m ih =>
    obtain ⟨c, hc⟩ : ∃ c, v.tickT1 = { v with t1c := c } := by
      by_cases h : v.t1c = 0
      · exact ⟨_, tickT1_unarmed h hshot harmed⟩
      · exact ⟨_, tickT1_of_ne h⟩
    rw [ticks, hc]
    exact ih hshot harmed

/-- Settles O57: the count is used up after `n` ticks, and the next one sets the flag. -/
theorem timerFlagsAtTickNPlusOne : Obligations.TimerFlagsAtTickNPlusOne := by
  rintro v n rfl
  have before (m : Nat) (hm : m ≤ v.t1c.toNat) : (ticks Via.tickT1 m v).ifr = v.ifr := by
    rw [ticks_tickT1_countdown hm]
  have last : ticks Via.tickT1 (v.t1c.toNat + 1) v = ({ v with t1c := 0 } : Via).tickT1 := by
    rw [ticks_add, ticks_tickT1_zero, ticks, ticks]
  refine ⟨fun hshot harmed => ⟨before, fun m => ?_⟩, fun hfree hlatch => ⟨before, ?_⟩⟩
  · rw [ticks_add, last, tickT1_armed (v := { v with t1c := 0 }) rfl hshot harmed]
    obtain ⟨c, hc⟩ := ticks_tickT1_unarmed (v := { v with
      t1c := 0xFFFF, ifr := v.ifr ||| Config.ifrT1, t1armed := false }) hshot rfl m
    rw [hc]
    refine ⟨rfl, rfl, fun f j => ?_⟩
    obtain ⟨c', hc'⟩ := ticks_tickT1_unarmed (v := { v with
      t1c := c, ifr := f, t1armed := false }) hshot rfl j
    rw [hc']
  · rw [last, tickT1_freerun (v := { v with t1c := 0 }) rfl hfree, hlatch]
    rfl

/-! ## The fan-in -/

/-- A fan-in step, flag by flag (R220). -/
theorem fanIn_bit (ifr : BitVec 7) (line : BitVec 3) (level : Bool) :
    ∀ k, k < 7 → (fanIn ifr line level).getLsbD k =
      if k = line.toNat then level else ifr.getLsbD k := by
  intro k hk
  cases level
  · rw [fanIn, if_neg Bool.false_ne_true, BitVec.getLsbD_and, BitVec.getLsbD_not, flagMask_bit _ hk]
    by_cases h : k = line.toNat <;> simp [h, hk]
  · rw [fanIn, if_pos rfl, or_flag_bit _ _ k hk]
    by_cases h : k = line.toNat <;> simp [h]

/-- Line 7 has no flag (R222). -/
theorem fanIn_line7 (ifr : BitVec 7) (level : Bool) : fanIn ifr 7 level = ifr := by
  refine BitVec.eq_of_getLsbD_eq fun k hk => ?_
  rw [fanIn_bit _ _ _ k hk, if_neg (show k ≠ (7 : BitVec 3).toNat from Nat.ne_of_lt hk)]

/-- Settles O56. -/
theorem fanInWritesItsOwnFlag : Obligations.FanInWritesItsOwnFlag := by
  intro bank line level s
  refine ⟨_, rfl, fanIn_bit _ line level, ?_⟩
  rintro rfl
  simp only [exec, execExtirq, fanIn_line7]
  exact congrArg Host.Outcome.next (setVia_self s bank)

end Sys2Proof.Proofs
end
